-- ==== Sys2Proof/Word.lean ====
section
/-! DEFINITION. The word types of the block: bytes, 32-bit words (arguments and response words, 00_scope.md R8),
the 128-bit CID and CSD registers (R26, R27) and system-memory addresses (log 7). -/

namespace Sys2Proof

/-- One byte of a frame, a payload or system memory. -/
abbrev Byte := BitVec 8

/-- A 32-bit command argument or response word (R8). -/
abbrev Word := BitVec 32

/-- A 128-bit register of the card: CID (R26) or CSD (R27). -/
abbrev Reg128 := BitVec 128

/-- A system-memory address (R61: opaque to the core). DESIGN CHOICE, log 7: 64 bits. -/
abbrev Addr := BitVec 64

end Sys2Proof
end

