-- ==== Sys2Proof/Config.lean ====
section
/-! DEFINITION. What an implementation fixes (00_scope.md R8), the result codes a host may give (60_exceptions.md R325),
and the free values: the environment's answers (R332), which nothing constrains beyond their type. -/

namespace Sys2Proof

/-- `HOST_ERRORS` (R325): the only error codes a host-port call may answer. -/
inductive HostError where
  | checkErr
  | crcErr
  | sendCmdFail
  | recvDataFail
  | sendDataFail
  | timeout
  deriving DecidableEq, Repr, Inhabited

/-- The answer of a `Result`-valued host call (R325): `Well` or one element of `HOST_ERRORS`. -/
inductive HostResult where
  | well
  | error (e : HostError)
  deriving DecidableEq, Repr, Inhabited

/-- The four raw response words `response[0..3]` (R36, R85, R86). -/
structure ResponseWords where
  w0 : Word
  w1 : Word
  w2 : Word
  w3 : Word
  deriving DecidableEq, Repr, Inhabited

/-- `FRAMING_MODE` (R8, R164). -/
inductive FramingMode where
  | coreCRC7
  | hostOverride
  deriving DecidableEq, Repr

/-- Which functions of R11 the host supplies, as `check_interface` (R301) sees them. -/
structure HostFunctions where
  sendCommand : Bool
  recvResponse : Bool
  sendData : Bool
  recvData : Bool
  isCardInserted : Bool
  setBusWidth : Bool
  setClockFrequency : Bool
  activateCard : Bool
  switchVoltage : Bool
  addFraming : Bool
  deriving DecidableEq, Repr

/-- The host bound to the Card (R34) as far as the core can see it: its parameters (R8) and its function set (R301). -/
structure HostPort where
  /-- `HOST_MAX_BLOCK_COUNT`. -/
  maxBlockCount : Nat
  /-- `HOST_AUTO_CMD12`. -/
  autoCmd12 : Bool
  /-- `HOST_SUPPORTS_1V8`. -/
  supports1V8 : Bool
  /-- `FRAMING_MODE`. -/
  framing : FramingMode
  functions : HostFunctions
  deriving DecidableEq, Repr

/-- The core's own parameters (R8). A limit of `none` is ∞. -/
structure Params where
  /-- `CMD8_MAX_ATTEMPTS`. -/
  cmd8MaxAttempts : Nat
  /-- `ACMD41_LOOP_BUDGET`. -/
  acmd41LoopBudget : Nat
  /-- `OCR_VOLTAGE_WINDOW`. -/
  ocrVoltageWindow : Word
  /-- `ACTIVATE_TIMEOUT`. -/
  activateTimeout : Nat
  /-- `STATUS_POLL_LIMIT`. -/
  statusPollLimit : Option Nat
  /-- `INSERT_POLL_LIMIT`. -/
  insertPollLimit : Option Nat
  /-- `DATA_RETRY`. -/
  dataRetry : Nat
  deriving DecidableEq, Repr

namespace Config

/-- Free value (log 6): the answer of the `n`-th unscripted `send_command` (R325, R332). -/
opaque anySendCommand : Nat → HostResult

/-- Free value (log 6): the words of the `n`-th unscripted `recv_response` (R85, R86, R332). -/
opaque anyResponse : Nat → ResponseWords

/-- Free value (log 6): the answer of the `n`-th unscripted `send_data` (R325). -/
opaque anySendData : Nat → HostResult

/-- Free value (log 6): the answer of the `n`-th unscripted `recv_data` (R325). -/
opaque anyRecvData : Nat → HostResult

/-- Free value (log 6): a byte the host writes into a receive buffer (R69, R332). -/
opaque anyByte : Nat → Byte

/-- Free value (log 6): the `n`-th unscripted answer of `is_card_inserted` (R332). -/
opaque anyInserted : Nat → Bool

/-- Free value (log 6): the `n`-th unscripted answer of `activate_card` (R332). -/
opaque anyActivated : Nat → Bool

/-- Free value (log 6): the `n`-th unscripted answer of `switch_voltage` (R325). -/
opaque anyVoltage : Nat → HostResult

/-- Free value (log 15): what the `n`-th unscripted `add_framing` leaves in `cmd.index[7:6]` and `cmd.crc` (R164, I4). -/
opaque anyFraming : Nat → BitVec 2 × BitVec 8

/-- Free value (log 6): whether the `n`-th unscripted acquisition succeeds (R327). -/
opaque anyAcquired : Nat → Bool

end Config

end Sys2Proof
end

