-- ==== Sys2Proof/Syntax.lean ====
section
/-! DEFINITION. The instructions: one constructor per row of opcode_table.json, the 24 commands (00_scope.md R3 b),
the 8 operations (R3 a) and the reserved op codes (30_encoding.md R98). -/

namespace Sys2Proof

/-- The mode bit of a CMD6 argument (R90). -/
inductive SwitchMode where
  | check
  | switch
  deriving DecidableEq, Repr

/-- The direction of `rw_blocks` (R97): 0 = read, 1 = write. -/
inductive Direction where
  | read
  | write
  deriving DecidableEq, Repr

/-- One row of the opcode table each. A command's operands are those of its controller's rule (42_command_controllers.md);
an operation's are the arguments it uses (R97). -/
inductive Instr where
  /-- GoIdle, R181. -/
  | cmd0
  /-- AllSendCID, R186. -/
  | cmd2
  /-- IssueRCA, R187. -/
  | cmd3
  /-- SelectFunction, R199. -/
  | cmd6 (mode : SwitchMode) (group index : Nat)
  /-- SelectCard, R190: `true` selects the card at `card.rca`, `false` deselects. -/
  | cmd7 (sel : Bool)
  /-- SendIfCond, R182. -/
  | cmd8
  /-- GetCSD, R188. -/
  | cmd9
  /-- SendCID, R191. -/
  | cmd10
  /-- SwitchVoltage, R194. -/
  | cmd11
  /-- StopTransmission, R193. -/
  | cmd12
  /-- GetStatus, R192. -/
  | cmd13
  /-- GoInactive, R195. -/
  | cmd15
  /-- SetBlockLength, R196. -/
  | cmd16 (len : Word)
  /-- ReadSingleBlock, R197. -/
  | cmd17 (addr : Word)
  /-- ReadMultipleBlock, R198. -/
  | cmd18 (addr : Word)
  /-- WriteBlock, R200. -/
  | cmd24 (addr : Word)
  /-- WriteMultipleBlock, R201. -/
  | cmd25 (addr : Word)
  /-- SetEraseBlockStart, R202. -/
  | cmd32 (addr : Word)
  /-- SetEraseBlockEnd, R203. -/
  | cmd33 (addr : Word)
  /-- Erase, R204. -/
  | cmd38
  /-- AppCmdPrefix, R183. -/
  | cmd55
  /-- SetBusWidth, R211. -/
  | acmd6 (width : Nat)
  /-- SendOpCond, R184. -/
  | acmd41 (arg : Word)
  /-- GetSCR, R189. -/
  | acmd51
  /-- R300. -/
  | allocateDevice
  /-- R302. -/
  | freeDevice
  /-- R299. -/
  | initialDevice
  /-- R303. -/
  | inactivateDevice
  /-- R291. -/
  | detect
  /-- R294. -/
  | toNormal
  /-- R304. `buffer = none` is the absent buffer of R260 check 1. -/
  | rwBlocks (buffer : Option Addr) (start count : Word) (dir : Direction)
  /-- R305. -/
  | formatBlocks (start count : Word)
  /-- A reserved op code, R98. -/
  | reservedOp (op : BitVec 4)
  deriving DecidableEq, Repr

end Sys2Proof
end

