-- ==== Sys2Proof/WellFormed.lean ====
section
/-! DEFINITION. Which instructions a request word can carry: the operands of 30_encoding.md R90, R93 and R97. -/

namespace Sys2Proof

/-- The operands that have an encoding. CMD6: group 1 to 6 and index 0 to 15 (R90); an index of 15 spells the same argument
for every group ("no change" in all six fields), so it is written with group 1 (log 18). ACMD6: width 1 or 4 (R93).
ACMD41: an argument whose bits 31 and 29:25 are 0 (R91, R95).
Reserved op codes: 0x0 and 0x9 to 0xF (R97). -/
def Instr.wf : Instr → Bool
  | .cmd6 _ g i => decide (1 ≤ g) && decide (g ≤ 6) && decide (i ≤ 15) && (decide (i ≠ 15) || decide (g = 1))
  | .acmd6 w => decide (w = 1) || decide (w = 4)
  | .acmd41 a => decide (a &&& 0x41FFFFFF#32 = a)
  | .reservedOp op => decide (op = 0) || decide (9 ≤ op.toNat)
  | .cmd0 | .cmd2 | .cmd3 | .cmd7 _ | .cmd8 | .cmd9 | .cmd10 | .cmd11 | .cmd12 | .cmd13 | .cmd15 | .cmd16 _
  | .cmd17 _ | .cmd18 _ | .cmd24 _ | .cmd25 _ | .cmd32 _ | .cmd33 _ | .cmd38 | .cmd55 | .acmd51
  | .allocateDevice | .freeDevice | .initialDevice | .inactivateDevice | .detect | .toNormal
  | .rwBlocks _ _ _ _ | .formatBlocks _ _ => true

/-- The instruction has an encoding. -/
abbrev WellFormed (i : Instr) : Prop := i.wf = true

end Sys2Proof
end

