-- ==== Sys2Proof/Decode.lean ====
section
/-! DEFINITION. The CRC7 framer's arithmetic (41_crc7_framer.md), the arguments of the command map (30_encoding.md R87 to
R94), the decoder of request words and, after it, their encoder. -/

namespace Sys2Proof

/-! ## CRC7 and the frame -/

/-- One step of the CRC7 register of R161: feed one message bit. -/
def crc7Bit (crc : BitVec 7) (b : Bool) : BitVec 7 :=
  let shifted := crc <<< 1
  if crc.getLsbD 6 ^^ b then shifted ^^^ 0x09#7 else shifted

/-- R161: feed one byte, bit 7 first. -/
def crc7Byte (crc : BitVec 7) (b : Byte) : BitVec 7 :=
  [7, 6, 5, 4, 3, 2, 1, 0].foldl (fun c k => crc7Bit c (b.getLsbD k)) crc

/-- R161: CRC7 of a command buffer, initial value 0, polynomial 0x09. -/
def crc7 (buf : List Byte) : BitVec 7 :=
  buf.foldl crc7Byte 0

/-- R162: the start bit becomes 0 and the transmission bit 1. -/
def startBits (index : Byte) : Byte :=
  0x40#8 ||| (index &&& 0x3F#8)

/-- R163: the CRC byte, CRC7 above the stop bit. -/
def crcByte (crc : BitVec 7) : Byte :=
  (crc.zeroExtend 8 <<< 1) ||| 1#8

/-- R81: the five bytes of the command buffer, most significant first; `indexByte` holds the start and transmission bits. -/
def commandBuffer (indexByte : Byte) (arg : Word) : List Byte :=
  [indexByte, arg.extractLsb 31 24, arg.extractLsb 23 16, arg.extractLsb 15 8, arg.extractLsb 7 0]

/-- R80: the frame made of the command register's fields as they stand after framing. -/
def frameBits (indexByte : Byte) (arg : Word) (crc : Byte) : BitVec 48 :=
  indexByte ++ arg ++ crc

/-- R80, R164: the frame the core's framer makes of an index and an argument. -/
def frameOf (index : BitVec 6) (arg : Word) : BitVec 48 :=
  let ib := startBits (index.zeroExtend 8)
  frameBits ib arg (crcByte (crc7 (commandBuffer ib arg)))

/-- R165: a receiver runs the register over the 40 message bits and then the 7 CRC bits, and accepts when it ends at 0. -/
def frameValid (f : BitVec 48) : Bool :=
  let msg := crc7 [f.extractLsb 47 40, f.extractLsb 39 32, f.extractLsb 31 24, f.extractLsb 23 16, f.extractLsb 15 8]
  decide ([7, 6, 5, 4, 3, 2, 1].foldl (fun c k => crc7Bit c (f.getLsbD k)) msg = 0#7)

/-! ## The arguments of the command map -/

/-- R88: the RCA in bits 31:16, zeros below. -/
def rca16 (rca : BitVec 16) : Word :=
  rca ++ 0#16

/-- R90: the CMD6 mode bit, 0 = Check, 1 = Switch. -/
def switchModeBits : SwitchMode → Word
  | .check => 0#32
  | .switch => 0x80000000#32

/-- R90: the CMD6 argument: the mode, the requested group's index, 0xF in every other group. -/
def cmd6Arg (mode : SwitchMode) (g i : Nat) : Word :=
  switchModeBits mode ||| (0xFFFFFF#32 &&& ~~~(0xF#32 <<< (4 * (g - 1)))) ||| (BitVec.ofNat 32 i <<< (4 * (g - 1)))

/-- R92: the CMD8 argument, echo pattern 0xAA and supplied voltage 2.7 to 3.6 V. -/
def cmd8Arg : Word := 0x000001AA#32

/-- R93, R211: the ACMD6 argument, 0b00 for width 1 and 0b10 for width 4. -/
def acmd6Arg (width : Nat) : Word :=
  if width = 4 then 0x00000002#32 else 0x00000000#32

/-- R91: the bits of an ACMD41 argument that are not marked 0: bit 30 HCS, bit 24 S18R, bits 23:0 the voltage window. -/
def acmd41Mask : Word := 0x41FFFFFF#32

/-- R91, R95: an ACMD41 argument as it is sent, bits 31 and 29:25 as 0. -/
def acmd41Sent (a : Word) : Word := a &&& acmd41Mask

/-! ## Request words -/

/-- What is presented at the request port (log 2, log 3): a 48-bit command frame (the rows of format cmd48) asks for that
command's controller, and an operation record (R97) for an operation. -/
inductive RequestWord where
  | frame (f : BitVec 48)
  | op (r : BitVec 136)
  deriving DecidableEq, Repr

/-- The operation record of R97 as one number. R97 fixes the fields and that `op` is 4 bits; the places of the others are a
DESIGN CHOICE, log 2: op 3:0, direction 4, buffer present 5, zero 7:6, start 39:8, count 71:40, buffer 135:72. -/
def opWord (op : BitVec 4) (dir present : BitVec 1) (start count : Word) (buffer : Addr) : BitVec 136 :=
  buffer ++ (count ++ (start ++ (0#2 ++ (present ++ (dir ++ op)))))

/-- Why a request word is no instruction. -/
inductive DecodeError where
  /-- Bits 47:46 are not 0b01 (R80, R95). -/
  | badStartBits
  /-- The stop bit is not 1 (R80, R95). -/
  | badStopBit
  /-- The index is none of the 24 command forms (R95). -/
  | unknownIndex (index : BitVec 6)
  /-- The argument, or the CRC where the table fixes it, is not of the index's form in R87; for ACMD41, a bit that R91 marks 0
  is set (log 27). -/
  | badArgument (index : BitVec 6)
  deriving DecidableEq, Repr

/-! ## The decoder -/

/-- A row whose match and mask fix the whole frame. -/
def decodeFixed (f : BitVec 48) (fixed : BitVec 48) (i : Instr) : Except DecodeError Instr :=
  if f = fixed then .ok i else .error (.badArgument (f.extractLsb 45 40))

/-- A row whose argument is `rca16` (R88): the 16 bits below the RCA are 0. The RCA field itself is no operand: the
controller reads `card.rca`. -/
def decodeAddressed (f : BitVec 48) (i : Instr) : Except DecodeError Instr :=
  if (f.extractLsb 23 8 : BitVec 16) = 0#16 then .ok i else .error (.badArgument (f.extractLsb 45 40))

/-- The CMD6 mode of an argument (R90 bit 31). -/
def cmd6Mode (arg : Word) : SwitchMode :=
  if arg.getLsbD 31 then .switch else .check

/-- The index a CMD6 argument holds in group `g` (R90). -/
def cmd6Nibble (arg : Word) (g : Nat) : Nat :=
  ((arg >>> (4 * (g - 1))).extractLsb 3 0).toNat

/-- Index 6: the R90 arguments are CMD6's and the R93 arguments are ACMD6's; no argument is both (log 3). -/
def decodeIndex6 (arg : Word) : Except DecodeError Instr :=
  if arg = acmd6Arg 1 then .ok (.acmd6 1)
  else if arg = acmd6Arg 4 then .ok (.acmd6 4)
  else
    match [1, 2, 3, 4, 5, 6].find? (fun g => decide (arg = cmd6Arg (cmd6Mode arg) g (cmd6Nibble arg g))) with
    | some g => .ok (.cmd6 (cmd6Mode arg) g (cmd6Nibble arg g))
    | none => .error (.badArgument 6#6)

/-- The command of a frame with index `idx` and argument `arg`: the rows of R87. -/
def decodeIndexed (f : BitVec 48) (idx : BitVec 6) (arg : Word) : Except DecodeError Instr :=
  if idx = 0#6 then decodeFixed f 0x400000000095#48 .cmd0
  else if idx = 2#6 then decodeFixed f 0x42000000004D#48 .cmd2
  else if idx = 3#6 then decodeFixed f 0x430000000021#48 .cmd3
  else if idx = 6#6 then decodeIndex6 arg
  else if idx = 7#6 then decodeAddressed f (.cmd7 (decide (arg ≠ 0#32)))
  else if idx = 8#6 then decodeFixed f 0x48000001AA87#48 .cmd8
  else if idx = 9#6 then decodeAddressed f .cmd9
  else if idx = 10#6 then decodeAddressed f .cmd10
  else if idx = 11#6 then decodeFixed f 0x4B0000000077#48 .cmd11
  else if idx = 12#6 then decodeFixed f 0x4C0000000061#48 .cmd12
  else if idx = 13#6 then decodeAddressed f .cmd13
  else if idx = 15#6 then decodeAddressed f .cmd15
  else if idx = 16#6 then .ok (.cmd16 arg)
  else if idx = 17#6 then .ok (.cmd17 arg)
  else if idx = 18#6 then .ok (.cmd18 arg)
  else if idx = 24#6 then .ok (.cmd24 arg)
  else if idx = 25#6 then .ok (.cmd25 arg)
  else if idx = 32#6 then .ok (.cmd32 arg)
  else if idx = 33#6 then .ok (.cmd33 arg)
  else if idx = 38#6 then decodeFixed f 0x6600000000A5#48 .cmd38
  else if idx = 41#6 then (if acmd41Sent arg = arg then .ok (.acmd41 arg) else .error (.badArgument 41#6))
  else if idx = 51#6 then decodeFixed f 0x7300000000C7#48 .acmd51
  else if idx = 55#6 then decodeAddressed f .cmd55
  else .error (.unknownIndex idx)

/-- The command of a frame. The start, transmission and stop bits must be R80's. The CRC bits of the rows whose mask leaves
them free are not read (log 3): the framer computes them anew when the command is sent. -/
def decodeFrame (f : BitVec 48) : Except DecodeError Instr :=
  if (f.extractLsb 47 46 : BitVec 2) ≠ 1#2 then .error .badStartBits
  else if f.getLsbD 0 = false then .error .badStopBit
  else decodeIndexed f (f.extractLsb 45 40) (f.extractLsb 39 8)

/-- The operation of a record (R97). Arguments an operation does not use are ignored. -/
def decodeOp (r : BitVec 136) : Instr :=
  let op : BitVec 4 := r.extractLsb 3 0
  let start : Word := r.extractLsb 39 8
  let count : Word := r.extractLsb 71 40
  if op = 1#4 then .allocateDevice
  else if op = 2#4 then .freeDevice
  else if op = 3#4 then .initialDevice
  else if op = 4#4 then .inactivateDevice
  else if op = 5#4 then .detect
  else if op = 6#4 then .toNormal
  else if op = 7#4 then
    .rwBlocks (if r.getLsbD 5 then some (r.extractLsb 135 72) else none) start count
      (if r.getLsbD 4 then .write else .read)
  else if op = 8#4 then .formatBlocks start count
  else .reservedOp op

/-- The instruction of a request word. -/
def decode : RequestWord → Except DecodeError Instr
  | .frame f => decodeFrame f
  | .op r => .ok (decodeOp r)

/-- R84, R89: how a frame's index field is read on the command line. After CMD55, index 6 is ACMD6 (`true`); without it,
CMD6 (`false`). An application command is one sent right after a CMD55. -/
def isApplicationCommand (afterCmd55 : Bool) (index : BitVec 6) : Bool :=
  afterCmd55 && (decide (index = 6#6) || decide (index = 41#6) || decide (index = 51#6))

/-! ## The encoder -/

/-- R87: index and argument of a command, its argument computed from its operands and the RCA. -/
def commandForm (rca : BitVec 16) : Instr → Option (BitVec 6 × Word)
  | .cmd0 => some (0#6, 0#32)
  | .cmd2 => some (2#6, 0#32)
  | .cmd3 => some (3#6, 0#32)
  | .cmd6 m g i => some (6#6, cmd6Arg m g i)
  | .cmd7 sel => some (7#6, if sel then rca16 rca else 0#32)
  | .cmd8 => some (8#6, cmd8Arg)
  | .cmd9 => some (9#6, rca16 rca)
  | .cmd10 => some (10#6, rca16 rca)
  | .cmd11 => some (11#6, 0#32)
  | .cmd12 => some (12#6, 0#32)
  | .cmd13 => some (13#6, rca16 rca)
  | .cmd15 => some (15#6, rca16 rca)
  | .cmd16 len => some (16#6, len)
  | .cmd17 a => some (17#6, a)
  | .cmd18 a => some (18#6, a)
  | .cmd24 a => some (24#6, a)
  | .cmd25 a => some (25#6, a)
  | .cmd32 a => some (32#6, a)
  | .cmd33 a => some (33#6, a)
  | .cmd38 => some (38#6, 0#32)
  | .cmd55 => some (55#6, rca16 rca)
  | .acmd6 w => some (6#6, acmd6Arg w)
  | .acmd41 a => some (41#6, acmd41Sent a)
  | .acmd51 => some (51#6, 0#32)
  | .allocateDevice | .freeDevice | .initialDevice | .inactivateDevice | .detect | .toNormal
  | .rwBlocks _ _ _ _ | .formatBlocks _ _ | .reservedOp _ => none

/-- R97: the record of an operation; arguments it does not use are 0. -/
def operationForm : Instr → BitVec 136
  | .allocateDevice => opWord 1 0 0 0 0 0
  | .freeDevice => opWord 2 0 0 0 0 0
  | .initialDevice => opWord 3 0 0 0 0 0
  | .inactivateDevice => opWord 4 0 0 0 0 0
  | .detect => opWord 5 0 0 0 0 0
  | .toNormal => opWord 6 0 0 0 0 0
  | .rwBlocks buffer start count dir =>
    opWord 7 (match dir with | .read => 0 | .write => 1) (if buffer.isSome then 1 else 0) start count (buffer.getD 0)
  | .formatBlocks start count => opWord 8 0 0 start count 0
  | .reservedOp op => opWord op 0 0 0 0 0
  | .cmd0 | .cmd2 | .cmd3 | .cmd6 _ _ _ | .cmd7 _ | .cmd8 | .cmd9 | .cmd10 | .cmd11 | .cmd12 | .cmd13 | .cmd15 | .cmd16 _
  | .cmd17 _ | .cmd18 _ | .cmd24 _ | .cmd25 _ | .cmd32 _ | .cmd33 _ | .cmd38 | .cmd55 | .acmd6 _ | .acmd41 _
  | .acmd51 => 0

/-- The request word of an instruction, with `rca` in the fields R88 gives the Relative Card Address. -/
def encode (rca : BitVec 16) (i : Instr) : RequestWord :=
  match commandForm rca i with
  | some (index, arg) => .frame (frameOf index arg)
  | none => .op (operationForm i)

/-! ## The host's table words -/

/-- The request word of a row of opcode_table.json: 48 bits are a command frame, fewer an operation record. -/
def requestWordOf (nbits w : Nat) : RequestWord :=
  if nbits = 48 then .frame (BitVec.ofNat 48 w) else .op (BitVec.ofNat 136 w)

/-- The instruction the decoder reads from the table word `w` of `nbits` bits. -/
def decodeTableWord (nbits w : Nat) : Option Instr :=
  match decode (requestWordOf nbits w) with
  | .ok i => some i
  | .error _ => none

end Sys2Proof
end

