-- ==== Sys2Proof/Machine/State.lean ====
section
/-! DEFINITION. The state of the block (10_state.md), as plain data: the Card register block, the command register with its
data descriptor, the payload buffer, the control point with the sequencer locals, system memory, the request port, the
observations of R358, the configuration of R8 and the environment's scripts. -/

namespace Sys2Proof.Machine

/-- The result codes of R320 (60_exceptions.md), in the order of their numbers. -/
inductive Result where
  | well
  | nullPtr
  | argFault
  | notReady
  | retry
  | notSupported
  | checkErr
  | crcErr
  | sendCmdFail
  | recvDataFail
  | sendDataFail
  | transStopFail
  | memErr
  | anyError
  | timeout
  deriving DecidableEq, Repr

/-- The response types of R37, in the order of their codes. -/
inductive ResponseType where
  | none
  | r1
  | r1b
  | r2
  | r3
  | r6
  | r7
  deriving DecidableEq, Repr

/-- The bus widths of R33. -/
inductive BusWidth where
  | one
  | four
  deriving DecidableEq, Repr

/-- The clock classes of R33 and R295. -/
inductive ClockClass where
  | none
  | f400K
  | f25M
  deriving DecidableEq, Repr

/-- The members of the mode set of R30, in the order of their bits. -/
inductive ModeName where
  | idle
  | ready
  | identify
  | standBy
  | transfer
  | sendingData
  | receivingData
  | programming
  | disconnected
  | inactive
  deriving DecidableEq, Repr

/-- One value for each of the six function groups (R32). -/
structure PerGroup (α : Type) where
  g1 : α
  g2 : α
  g3 : α
  g4 : α
  g5 : α
  g6 : α
  deriving DecidableEq, Repr

/-- The Card register block (R21 to R35). `high_capacity` (R25) is derived, see `Card.highCapacity`. -/
structure Card where
  rca : BitVec 16
  ocr : Word
  version : BitVec 2
  voltage : BitVec 1
  cid : Reg128
  cidValid : Bool
  csd : Reg128
  csdValid : Bool
  blockCount : BitVec 64
  blockSize : BitVec 32
  capacity : BitVec 64
  scr : BitVec 64
  scrValid : Bool
  mode : BitVec 10
  fnSupport : PerGroup (BitVec 16)
  fnCurrent : PerGroup (BitVec 4)
  fnValid : Bool
  busWidth : BusWidth
  clockClass : ClockClass
  allocated : Bool
  deriving DecidableEq, Repr

/-- The reset values of R35 and R354, with `allocated` as given: true as `allocate_device` writes them, false before the
first allocation (log 8). -/
def Card.initial (allocated : Bool) : Card where
  rca := 0
  ocr := 0
  version := 0
  voltage := 0
  cid := 0
  cidValid := false
  csd := 0
  csdValid := false
  blockCount := 0
  blockSize := 0
  capacity := 0
  scr := 0
  scrValid := false
  mode := 0
  fnSupport := ⟨0, 0, 0, 0, 0, 0⟩
  fnCurrent := ⟨0, 0, 0, 0, 0, 0⟩
  fnValid := false
  busWidth := .one
  clockClass := .none
  allocated := allocated

/-- What a descriptor's buffer field names (R38): the internal payload buffer (R40, R62) or system memory. -/
inductive Buffer where
  | payload
  | system (a : Addr)
  deriving DecidableEq, Repr

/-- The data descriptor (R38). -/
structure Descriptor where
  blockSize : BitVec 32
  blockCount : BitVec 32
  capacity : BitVec 64
  rxBuffer : Option Buffer
  txBuffer : Option Addr
  /-- Bit 0 ReadEnable, bit 1 AutoStopAfterMultiBlock, bit 2 AutoCmd23. -/
  flags : BitVec 3
  deriving DecidableEq, Repr

/-- The command register (R36). -/
structure CmdReg where
  index : BitVec 8
  argument : Word
  crc : BitVec 8
  responseType : ResponseType
  response : ResponseWords
  data : Option Descriptor
  deriving DecidableEq, Repr

/-- The register no controller has written (R36): every field is 0 or none. -/
def CmdReg.blank : CmdReg where
  index := 0
  argument := 0
  crc := 0
  responseType := .none
  response := ⟨0, 0, 0, 0⟩
  data := none

/-- The payload buffer while it is acquired (R40): its size, and the bytes received into it. -/
structure Payload where
  size : Nat
  bytes : List Byte
  deriving DecidableEq, Repr

/-- The locals of `transfer` and `transaction` (R44, R262, R263, R266). -/
structure Cursor where
  dir : Direction
  buffer : Addr
  block : Nat
  remaining : Nat
  /-- Data retries already made in this transaction. -/
  retry : Nat
  /-- CMD13 polls already answered `NotReady` in this attempt. -/
  polls : Nat
  deriving DecidableEq, Repr

/-- Where the running controller or operation stands in its pseudocode (R50): what it does next. The locals alive there stand
with it (R44). -/
inductive Point where
  -- the host-port calls of `exchange` (R14); the command register holds the rest
  | addFraming
  | sendCommand
  | recvResponse
  -- the other host-port calls, by the pseudocode that makes them
  /-- GoIdle's pre-drain (R181). -/
  | drain
  /-- SwitchVoltage's `host.switch_voltage` (R194). -/
  | voltage
  /-- GetSCR's `host.recv_data` (R189). -/
  | scrData
  /-- SelectFunction's `host.recv_data` (R199). -/
  | tableData
  /-- `detect` step 1 (R291), after `k` false answers. -/
  | insertion (k : Nat)
  /-- `detect` step 2, `host.set_bus_width(1)`. -/
  | identificationBus
  /-- `detect` step 2, `host.set_clock_frequency(F400K)`. -/
  | identificationClock
  /-- `detect` step 3. -/
  | activation
  /-- `to_normal`'s `host.set_clock_frequency(F25M)` (R294). -/
  | transferClock
  /-- `inactivate_device`'s `host.set_bus_width(1)` (R303). -/
  | teardownBus
  /-- The data phase of an attempt (R264, R265). -/
  | blockData (cur : Cursor)
  -- the heads of the loops, between two calls
  /-- The attempts of SendIfCond (R182), before attempt `k`; `last` is the last failure. -/
  | ifCondAttempt (k : Nat) (last : Result)
  /-- The ACMD41 loop (R293), before iteration `k`. -/
  | opCondIteration (v2 : Bool) (k : Nat)
  /-- `wait_ready` (R263), before a poll. -/
  | statusPoll (cur : Cursor)
  /-- The erase loop (R268), before a chunk. -/
  | eraseChunk (block remaining : Nat)
  -- a return, between two calls
  /-- A controller has executed `return r` (R13). -/
  | returned (r : Result)
  /-- A public operation has executed its `return`; the code is the diagnostic of R306, none where no step gave one. -/
  | ended (ok : Bool) (code : Option Result)
  deriving DecidableEq, Repr

/-- A controller or operation that waits for one it has called to return (R50): the place right after the call, with the locals
alive there (R44). -/
inductive Frame where
  -- 42_command_controllers.md: each waits for its exchange, or for its CMD55 prefix
  | goIdle
  | ifCond (k : Nat)
  | appPrefix
  | opCondPrefix (a : Word)
  | opCond
  | cid
  | rca
  | voltage
  | csd
  | scrPrefix
  | scr
  | widthPrefix (width : Nat)
  | table
  | status
  | stop
  | inactive
  /-- A controller whose rest is `check_r1` (R185): SelectCard with a response, SetBlockLength, SetBusWidth after its prefix, the
  command phases of the data commands, the three erase commands. -/
  | checked
  /-- SelectCard with no response: its rest is `return Well` (R190). -/
  | sent
  -- 43_function_switch.md: `negotiate(g, i)` (R240)
  | checkLength (g i : Nat)
  | checkTable (g i : Nat)
  | switchLength (g i : Nat)
  | switchTable (g i : Nat)
  -- 44_block_transfer.md
  /-- `attempt` waits for its status poll (R263, R264). -/
  | polled (cur : Cursor)
  /-- `attempt` waits for its command phase. -/
  | commanded (cur : Cursor)
  /-- `attempt` waits for its CMD12; `received` says whether the data phase succeeded (R267). -/
  | stopped (cur : Cursor) (received : Bool)
  | eraseStart (block remaining : Nat)
  | eraseEnd (block remaining : Nat)
  | erased (block remaining : Nat)
  -- 45_lifecycle.md: `detect` (R291, R293)
  | detectIdle
  | detectIfCond
  | detectOpCond (v2 : Bool) (k : Nat)
  | detectVoltage
  | detectCid
  | detectRca
  -- `to_normal` (R294, R297)
  | normalCsd
  | normalSelect
  | normalScr
  | normalSpeed
  | normalDrive
  | normalPower
  | normalLength
  /-- `to_normal_failure` waits for its deselect; `r` is the failure. -/
  | normalDeselect (r : Result)
  -- `inactivate_device` (R303)
  | teardownDeselect
  | teardownIdle
  -- operations that wait for an operation
  /-- `initial_device` waits for `detect` (R299). -/
  | initialDetect
  /-- `initial_device` waits for `to_normal` (R299). -/
  | initialNormal
  /-- `free_device` waits for `inactivate_device` (R302). -/
  | freeDevice
  deriving DecidableEq, Repr

/-- The control point (R50): idle at the request port (R351), or a position in the pseudocode with the stack of those that wait,
the innermost first. -/
inductive Control where
  | idle
  | running (p : Point) (stack : List Frame)
  deriving DecidableEq, Repr

/-- One host-port call with its answer (R11, R333): an entry of the trace of R358. -/
inductive HostEvent where
  | sendCommand (cmd : CmdReg) (answer : HostResult)
  | recvResponse (words : ResponseWords)
  /-- `bytes` are those the host read from the transmit buffer; empty when the answer is an error (log 25). -/
  | sendData (desc : Descriptor) (bytes : List Byte) (answer : HostResult)
  /-- `bytes` are those the host left in the receive buffer: the received data on `Well`, any value on an error (R69). -/
  | recvData (desc : Descriptor) (bytes : List Byte) (answer : HostResult)
  | isCardInserted (answer : Bool)
  | setBusWidth (w : BusWidth)
  | setClockFrequency (c : ClockClass)
  | activateCard (timeout : Nat) (answer : Bool)
  /-- The level is 1.8 V, the only one the core asks for (R194). -/
  | switchVoltage1V8 (answer : HostResult)
  | addFraming (indexHigh : BitVec 2) (crc : BitVec 8)
  deriving DecidableEq, Repr

/-- The shape of a command's data phase in a description (R180). -/
structure DataShape where
  blockCount : BitVec 32
  blockSize : BitVec 32
  dir : Direction
  deriving DecidableEq, Repr

/-- The tuple describe mode returns (R180). -/
structure Description where
  index : BitVec 6
  argument : Word
  responseType : ResponseType
  data : Option DataShape
  deriving DecidableEq, Repr

/-- What the caller sees at the end of a request (R41 b, R306, R358). -/
structure OpResult where
  /-- The Boolean of a public operation; for a controller, whether its result is `Well`. -/
  ok : Bool
  /-- A controller's result, or the diagnostic code of an operation (R306); none where a step without a result code failed. -/
  code : Option Result
  /-- The output of describe mode (R180). -/
  described : Option Description
  deriving DecidableEq, Repr

/-- One request at the port (R97; log 2, log 12, log 17). -/
structure Request where
  word : RequestWord
  /-- R180: execute mode when a host reference is supplied, describe mode when not. An operation has one mode (log 17). -/
  hostSupplied : Bool
  /-- The descriptor handed to a direct data command (R197, R198, R200, R201). -/
  desc : Option Descriptor
  deriving DecidableEq, Repr

/-- The environment's answers still to come, a script for each kind of host call (R332; log 6). -/
structure Environment where
  sendCommands : List HostResult
  responses : List ResponseWords
  sendDatas : List HostResult
  recvDatas : List (HostResult × List Byte)
  inserted : List Bool
  activated : List Bool
  voltages : List HostResult
  framings : List (BitVec 2 × BitVec 8)
  acquisitions : List Bool
  deriving DecidableEq, Repr

/-- No answer is scripted: every answer is a free value. -/
def Environment.unscripted : Environment where
  sendCommands := []
  responses := []
  sendDatas := []
  recvDatas := []
  inserted := []
  activated := []
  voltages := []
  framings := []
  acquisitions := []

/-- System memory (R60 c): the bytes that differ from what an unlisted address reads as, addresses strictly rising. -/
abbrev Memory := List Host.Cell

/-- What an address of system memory that nothing has written reads as. DESIGN CHOICE, log 7 (R355: any value). -/
def unlistedByte : Byte := 0

/-- The whole state of the block. -/
structure State where
  host : HostPort
  params : Params
  card : Card
  cmd : CmdReg
  payload : Option Payload
  control : Control
  mem : Memory
  request : Option Request
  callerDesc : Option Descriptor
  outcome : Option OpResult
  /-- Most recent call first. -/
  trace : List HostEvent
  env : Environment
  draws : Nat
  deriving DecidableEq, Repr

/-- No step of this block faults: R334, "Fault: none. No condition of this block has "undefined" meaning on an admitted
request." Every error is a result code (R320). -/
inductive Fault where
  deriving DecidableEq, Repr

/-- What the block gives no meaning to (R334). -/
inductive Refusal where
  /-- Raised by an arm of `exec` that has no meaning yet. Safe. No arm raises it. -/
  | notModelled (mnemonic : String)
  /-- Raised by a request with a reserved op code (R98). Safe: the spec refuses it. -/
  | reservedOpCode (op : BitVec 4)
  /-- Raised by a request while an operation is in progress (R74, R334). Safe: the spec refuses it. -/
  | overlappingRequest
  /-- Raised by a request word that is none of the forms the block has (R95). Safe: it has no meaning in the spec. -/
  | notARequest (why : DecodeError)
  /-- Raised by describe mode for operands outside the command's range, which no request word carries (R199, R211; log 17).
  Safe. -/
  | noDescription
  /-- Raised by a reader of Card fields while no Card is allocated (R302, R334). Safe: the spec refuses it. -/
  | cardNotAllocated
  /-- Raised by a reader of the CSD layout that the structure field does not select (R27, R334). Safe: the spec refuses it. -/
  | csdLayoutNotSelected
  deriving DecidableEq, Repr

/-- The host of the default parameters P0 (95_test_vectors.md), with a complete interface (R357). DESIGN CHOICE, log 5. -/
def defaultHost : HostPort where
  maxBlockCount := 8
  autoCmd12 := false
  supports1V8 := false
  framing := .coreCRC7
  functions := ⟨true, true, true, true, true, true, true, true, true, true⟩

/-- The decided parameters and the defaults of R8; `ACTIVATE_TIMEOUT` has none, log 5. -/
def defaultParams : Params where
  cmd8MaxAttempts := 10
  acmd41LoopBudget := 1000
  ocrVoltageWindow := 0x00FF8000#32
  activateTimeout := 74
  statusPollLimit := none
  insertPollLimit := none
  dataRetry := 1

/-- The block right after reset (R350, R351): no Card allocated, waiting at the request port with no operation running. -/
def State.reset : State where
  host := defaultHost
  params := defaultParams
  card := Card.initial false
  cmd := .blank
  payload := none
  control := .idle
  mem := []
  request := none
  callerDesc := none
  outcome := none
  trace := []
  env := .unscripted
  draws := 0

end Sys2Proof.Machine
end

