-- ==== Sys2Proof/Machine/Flags.lean ====
section
/-! DEFINITION. The block's flags (10_state.md R41): result codes and their numbers, the R1 card status and its predicates,
and the R3, R6 and R7 payloads (40_register_codec.md R120 to R128). -/

namespace Sys2Proof.Machine

/-- The 4-bit numbers of the result codes (R320). -/
def Result.code : Result → BitVec 4
  | .well => 0
  | .nullPtr => 1
  | .argFault => 2
  | .notReady => 3
  | .retry => 4
  | .notSupported => 5
  | .checkErr => 6
  | .crcErr => 7
  | .sendCmdFail => 8
  | .recvDataFail => 9
  | .sendDataFail => 10
  | .transStopFail => 11
  | .memErr => 12
  | .anyError => 13
  | .timeout => 14

/-- The 3-bit numbers of the response types (R37). -/
def ResponseType.code : ResponseType → BitVec 3
  | .none => 0
  | .r1 => 1
  | .r1b => 2
  | .r2 => 3
  | .r3 => 4
  | .r6 => 5
  | .r7 => 6

/-- R84: the length in bits of the response a type names. -/
def ResponseType.bits : ResponseType → Nat
  | .none => 0
  | .r2 => 136
  | .r1 | .r1b | .r3 | .r6 | .r7 => 48

/-- The host's error as a result code (R325). -/
def errorCode : HostError → Result
  | .checkErr => .checkErr
  | .crcErr => .crcErr
  | .sendCmdFail => .sendCmdFail
  | .recvDataFail => .recvDataFail
  | .sendDataFail => .sendDataFail
  | .timeout => .timeout

/-- The caller's view of a `Result`-valued host call (R325): the value unchanged. -/
def hostCode : HostResult → Result
  | .well => .well
  | .error e => errorCode e

/-- `ALL_ERR_MASK` (R121): bits 31 to 19 and bit 3. -/
def allErrMask : Word := 0xFFF80008#32

/-- `r1_ok` (R121). -/
def r1Ok (w : Word) : Bool := decide (w &&& allErrMask = 0#32)

/-- The named bits of the card status (R120). -/
structure CardStatus where
  outOfRange : Bool
  addressError : Bool
  blockLenError : Bool
  eraseSeqError : Bool
  eraseParam : Bool
  wpViolation : Bool
  cardIsLocked : Bool
  lockUnlockFailed : Bool
  comCrcError : Bool
  illegalCommand : Bool
  cardEccFailed : Bool
  ccError : Bool
  error : Bool
  csdOverwrite : Bool
  wpEraseSkip : Bool
  cardEccDisabled : Bool
  eraseReset : Bool
  currentState : BitVec 4
  readyForData : Bool
  fxEvent : Bool
  appCmd : Bool
  akeSeqError : Bool
  deriving DecidableEq, Repr

/-- The decode of an R1 payload (R120). -/
def cardStatus (w : Word) : CardStatus where
  outOfRange := w.getLsbD 31
  addressError := w.getLsbD 30
  blockLenError := w.getLsbD 29
  eraseSeqError := w.getLsbD 28
  eraseParam := w.getLsbD 27
  wpViolation := w.getLsbD 26
  cardIsLocked := w.getLsbD 25
  lockUnlockFailed := w.getLsbD 24
  comCrcError := w.getLsbD 23
  illegalCommand := w.getLsbD 22
  cardEccFailed := w.getLsbD 21
  ccError := w.getLsbD 20
  error := w.getLsbD 19
  csdOverwrite := w.getLsbD 16
  wpEraseSkip := w.getLsbD 15
  cardEccDisabled := w.getLsbD 14
  eraseReset := w.getLsbD 13
  currentState := w.extractLsb 12 9
  readyForData := w.getLsbD 8
  fxEvent := w.getLsbD 6
  appCmd := w.getLsbD 5
  akeSeqError := w.getLsbD 3

/-- The mode name of a CURRENT_STATE value (R122); 9 to 15 are reserved. -/
def currentStateName (v : BitVec 4) : Option ModeName :=
  match v.toNat with
  | 0 => some .idle
  | 1 => some .ready
  | 2 => some .identify
  | 3 => some .standBy
  | 4 => some .transfer
  | 5 => some .sendingData
  | 6 => some .receivingData
  | 7 => some .programming
  | 8 => some .disconnected
  | _ => none

/-- `CURRENT_STATE == 7`, Programming (R122). -/
def isProgramming (w : Word) : Bool := decide ((w.extractLsb 12 9 : BitVec 4) = 7#4)

/-- `status_ready` (R124). -/
def statusReady (w : Word) : Bool := r1Ok w && w.getLsbD 8 && !isProgramming w

/-- APP_CMD (R123). -/
def appCmdSet (w : Word) : Bool := w.getLsbD 5

/-- OCR bit 31 (R126): power-up has finished. -/
def ocrPoweredUp (w : Word) : Bool := w.getLsbD 31

/-- OCR bit 24, S18A (R126): the card accepts the 1.8 V switch. -/
def ocrS18A (w : Word) : Bool := w.getLsbD 24

/-- The fields of the OCR (R126). -/
structure OcrFields where
  poweredUp : Bool
  ccs : Bool
  uhs2 : Bool
  s18a : Bool
  voltageWindow : BitVec 9
  deriving DecidableEq, Repr

/-- The decode of the OCR (R126). -/
def ocrFields (w : Word) : OcrFields where
  poweredUp := ocrPoweredUp w
  ccs := w.getLsbD 30
  uhs2 := w.getLsbD 29
  s18a := ocrS18A w
  voltageWindow := w.extractLsb 23 15

/-- `r6_ok` (R127): no error bit among bits 15:13. -/
def r6Ok (w : Word) : Bool := decide ((w.extractLsb 15 13 : BitVec 3) = 0#3)

/-- The RCA of an R6 payload (R127). -/
def r6Rca (w : Word) : BitVec 16 := w.extractLsb 31 16

/-- The fields of an R6 payload (R127). -/
structure R6Fields where
  rca : BitVec 16
  comCrcError : Bool
  illegalCommand : Bool
  error : Bool
  /-- Card status bits 12:0. -/
  status : BitVec 13
  deriving DecidableEq, Repr

/-- The decode of an R6 payload (R127). -/
def r6Fields (w : Word) : R6Fields where
  rca := r6Rca w
  comCrcError := w.getLsbD 15
  illegalCommand := w.getLsbD 14
  error := w.getLsbD 13
  status := w.extractLsb 12 0

/-- The fields of an R7 payload (R128). -/
structure R7Fields where
  voltageAccepted : BitVec 4
  checkPattern : BitVec 8
  deriving DecidableEq, Repr

/-- The decode of an R7 payload (R128). The voltage-accepted field is not checked. -/
def r7Fields (w : Word) : R7Fields where
  voltageAccepted := w.extractLsb 11 8
  checkPattern := w.extractLsb 7 0

/-- `r7_ok` (R128): the echoed check pattern. -/
def r7Ok (w : Word) : Bool := decide ((w.extractLsb 7 0 : BitVec 8) = 0xAA#8)

/-- The mode bit of R30. -/
def ModeName.bits : ModeName → BitVec 10
  | .idle => 0x001#10
  | .ready => 0x002#10
  | .identify => 0x004#10
  | .standBy => 0x008#10
  | .transfer => 0x010#10
  | .sendingData => 0x020#10
  | .receivingData => 0x040#10
  | .programming => 0x080#10
  | .disconnected => 0x100#10
  | .inactive => 0x200#10

/-- `high_capacity` (R25): OCR bit 30. -/
def Card.highCapacity (c : Card) : Bool := c.ocr.getLsbD 30

/-- `card.mode == m` (R30). -/
def Card.inMode (c : Card) (m : ModeName) : Bool := decide (c.mode = m.bits)

end Sys2Proof.Machine
end

