-- ==== Sys2Proof/Machine/Codec.lean ====
section
/-! DEFINITION. The register codec (40_register_codec.md R129 to R140): pure functions of response words and payload bytes. -/

namespace Sys2Proof.Machine

/-! ## Response frames (R83 to R86) -/

/-- R83: the 48-bit response of a type to the command with this index, as it stands on the command line. For R1, R1b, R6 and R7
the index is echoed and the CRC field is the CRC7 (R161) of the 40 bits before it; for R3 both fields are all ones. The other
types have no short response (R84). The host checks these bits, the core never sees them (R168). -/
def shortResponseFrame (type : ResponseType) (index : BitVec 6) (payload : Word) : Option (BitVec 48) :=
  match type with
  | .none | .r2 => none
  | .r3 => some (0#2 ++ (0b111111#6 ++ (payload ++ (0b1111111#7 ++ 1#1))))
  | .r1 | .r1b | .r6 | .r7 => some (0#2 ++ (index ++ (payload ++ (crc7 (commandBuffer (0#2 ++ index) payload) ++ 1#1))))

/-- R83: the 136-bit response that carries a CID or CSD register; bit 0 is the stop bit. -/
def longResponseFrame (reg : Reg128) : BitVec 136 :=
  0#2 ++ (0b111111#6 ++ ((reg.extractLsb 127 1 : BitVec 127) ++ 1#1))

/-- R85: the payload of a 48-bit response, frame bits 39:8. -/
def shortResponsePayload (f : BitVec 48) : Word := f.extractLsb 39 8

/-- R86: the words in which a 128-bit register arrives. -/
def wordsOfRegister (reg : Reg128) : ResponseWords where
  w0 := reg.extractLsb 31 0
  w1 := reg.extractLsb 63 32
  w2 := reg.extractLsb 95 64
  w3 := reg.extractLsb 127 96

/-- R86: the register of an R2 response, `response[3]` most significant. -/
def registerOfWords (r : ResponseWords) : Reg128 := r.w3 ++ (r.w2 ++ (r.w1 ++ r.w0))

/-! ## CID (R129) -/

/-- The fields of the CID. -/
structure CidFields where
  mid : BitVec 8
  oid : BitVec 16
  pnm : BitVec 40
  prv : BitVec 8
  psn : BitVec 32
  mdt : BitVec 12
  deriving DecidableEq, Repr

/-- R129. -/
def cidFields (reg : Reg128) : CidFields where
  mid := reg.extractLsb 127 120
  oid := reg.extractLsb 119 104
  pnm := reg.extractLsb 103 64
  prv := reg.extractLsb 63 56
  psn := reg.extractLsb 55 24
  mdt := reg.extractLsb 19 8

/-- The product revision n.m of R129. -/
def CidFields.revision (c : CidFields) : Nat × Nat :=
  ((c.prv.extractLsb 7 4).toNat, (c.prv.extractLsb 3 0).toNat)

/-- The manufacture year of R129. -/
def CidFields.year (c : CidFields) : Nat := 2000 + (c.mdt.extractLsb 11 4).toNat

/-- The manufacture month of R129. -/
def CidFields.month (c : CidFields) : Nat := (c.mdt.extractLsb 3 0).toNat

/-! ## CSD (R130 to R135) -/

/-- `CSD_STRUCTURE` (R130). -/
def csdStructure (reg : Reg128) : BitVec 2 := reg.extractLsb 127 126

/-- The fields both CSD layouts share (R131, R132). -/
structure CsdCommon where
  taac : BitVec 8
  nsac : BitVec 8
  tranSpeed : BitVec 8
  ccc : BitVec 12
  readBlLen : BitVec 4
  readBlPartial : Bool
  writeBlkMisalign : Bool
  readBlkMisalign : Bool
  dsrImp : Bool
  eraseBlkEn : Bool
  sectorSize : BitVec 7
  wpGrpSize : BitVec 7
  wpGrpEnable : Bool
  r2wFactor : BitVec 3
  writeBlLen : BitVec 4
  writeBlPartial : Bool
  fileFormatGrp : Bool
  copy : Bool
  permWriteProtect : Bool
  tmpWriteProtect : Bool
  fileFormat : BitVec 2
  deriving DecidableEq, Repr

/-- The version-1.0 layout (R131). -/
structure CsdV1 where
  common : CsdCommon
  cSize : BitVec 12
  vddRCurrMin : BitVec 3
  vddRCurrMax : BitVec 3
  vddWCurrMin : BitVec 3
  vddWCurrMax : BitVec 3
  cSizeMult : BitVec 3
  deriving DecidableEq, Repr

/-- The version-2.0 layout (R132). -/
structure CsdV2 where
  common : CsdCommon
  cSize : BitVec 22
  deriving DecidableEq, Repr

/-- The decoded CSD, a tagged union on `CSD_STRUCTURE` (R27, R130). -/
inductive CsdFields where
  | v1 (f : CsdV1)
  | v2 (f : CsdV2)
  deriving DecidableEq, Repr

/-- The shared fields of R131. -/
def csdCommon (reg : Reg128) : CsdCommon where
  taac := reg.extractLsb 119 112
  nsac := reg.extractLsb 111 104
  tranSpeed := reg.extractLsb 103 96
  ccc := reg.extractLsb 95 84
  readBlLen := reg.extractLsb 83 80
  readBlPartial := reg.getLsbD 79
  writeBlkMisalign := reg.getLsbD 78
  readBlkMisalign := reg.getLsbD 77
  dsrImp := reg.getLsbD 76
  eraseBlkEn := reg.getLsbD 46
  sectorSize := reg.extractLsb 45 39
  wpGrpSize := reg.extractLsb 38 32
  wpGrpEnable := reg.getLsbD 31
  r2wFactor := reg.extractLsb 28 26
  writeBlLen := reg.extractLsb 25 22
  writeBlPartial := reg.getLsbD 21
  fileFormatGrp := reg.getLsbD 15
  copy := reg.getLsbD 14
  permWriteProtect := reg.getLsbD 13
  tmpWriteProtect := reg.getLsbD 12
  fileFormat := reg.extractLsb 11 10

/-- R131. -/
def csdV1 (reg : Reg128) : CsdV1 where
  common := csdCommon reg
  cSize := reg.extractLsb 73 62
  vddRCurrMin := reg.extractLsb 61 59
  vddRCurrMax := reg.extractLsb 58 56
  vddWCurrMin := reg.extractLsb 55 53
  vddWCurrMax := reg.extractLsb 52 50
  cSizeMult := reg.extractLsb 49 47

/-- R132. -/
def csdV2 (reg : Reg128) : CsdV2 where
  common := csdCommon reg
  cSize := reg.extractLsb 69 48

/-- R130: the layout the structure field selects; none for structures 2 and 3, for which there is no layout. -/
def csdFields (reg : Reg128) : Option CsdFields :=
  if csdStructure reg = 0#2 then some (.v1 (csdV1 reg))
  else if csdStructure reg = 1#2 then some (.v2 (csdV2 reg))
  else none

/-- The geometry registers (R28). -/
structure Geometry where
  blockCount : BitVec 64
  blockSize : BitVec 32
  capacity : BitVec 64
  deriving DecidableEq, Repr

/-- Version-1.0 geometry (R133), in 64-bit arithmetic. -/
def geometryV1 (f : CsdV1) : Geometry :=
  let count : BitVec 64 := (f.cSize.zeroExtend 64 + 1#64) <<< (f.cSizeMult.toNat + 2)
  let size : BitVec 32 := 1#32 <<< f.common.readBlLen.toNat
  ⟨count, size, count * size.zeroExtend 64⟩

/-- Version-2.0 geometry (R134). -/
def geometryV2 (f : CsdV2) : Geometry :=
  let count : BitVec 64 := (f.cSize.zeroExtend 64 + 1#64) * 1024#64
  ⟨count, 512#32, count * 512#64⟩

/-- The geometry of the layout that is selected (R130, R135). -/
def CsdFields.geometry : CsdFields → Geometry
  | .v1 f => geometryV1 f
  | .v2 f => geometryV2 f

/-- The geometry registers take a geometry (R188). -/
def Card.withGeometry (c : Card) (g : Geometry) : Card :=
  { c with blockCount := g.blockCount, blockSize := g.blockSize, capacity := g.capacity }

/-! ## SCR (R136 to R138) -/

/-- The `i`-th byte of a payload. -/
def payloadByte (p : List Byte) (i : Nat) : Byte := p.getD i 0#8

/-- R136: the SCR of its 8-byte payload, first byte most significant. -/
def assembleScr (p : List Byte) : BitVec 64 :=
  payloadByte p 0 ++ (payloadByte p 1 ++ (payloadByte p 2 ++ (payloadByte p 3 ++
    (payloadByte p 4 ++ (payloadByte p 5 ++ (payloadByte p 6 ++ payloadByte p 7))))))

/-- The fields of the SCR (R137). -/
structure ScrFields where
  scrStructure : BitVec 4
  sdSpec : BitVec 4
  dataStatAfterErase : Bool
  sdSecurity : BitVec 3
  sdBusWidths : BitVec 4
  sdSpec3 : Bool
  exSecurity : BitVec 4
  sdSpec4 : Bool
  sdSpecX : BitVec 4
  cmdSupport : BitVec 4
  deriving DecidableEq, Repr

/-- R137. -/
def scrFields (s : BitVec 64) : ScrFields where
  scrStructure := s.extractLsb 63 60
  sdSpec := s.extractLsb 59 56
  dataStatAfterErase := s.getLsbD 55
  sdSecurity := s.extractLsb 54 52
  sdBusWidths := s.extractLsb 51 48
  sdSpec3 := s.getLsbD 47
  exSecurity := s.extractLsb 46 43
  sdSpec4 := s.getLsbD 42
  sdSpecX := s.extractLsb 41 38
  cmdSupport := s.extractLsb 35 32

/-- R138: the version code of an SCR. -/
def versionOf (s : BitVec 64) : BitVec 2 :=
  let f := scrFields s
  if f.sdSpec = 0#4 then 0#2
  else if f.sdSpec = 1#4 then 1#2
  else if f.sdSpec = 2#4 then (if f.sdSpec3 then 3#2 else 2#2)
  else 3#2

/-! ## CMD6 switch status (R139) -/

/-- The entry of group `g`, 1 to 6. -/
def PerGroup.get {α : Type} (t : PerGroup α) (g : Nat) : α :=
  match g with
  | 0 | 1 => t.g1
  | 2 => t.g2
  | 3 => t.g3
  | 4 => t.g4
  | 5 => t.g5
  | _ => t.g6

/-- A table from a function of the group number. -/
def PerGroup.ofFn {α : Type} (f : Nat → α) : PerGroup α := ⟨f 1, f 2, f 3, f 4, f 5, f 6⟩

/-- R139: the support bitmap of group `g`. -/
def fnSupportOf (p : List Byte) (g : Nat) : BitVec 16 :=
  payloadByte p (14 - 2 * g) ++ payloadByte p (15 - 2 * g)

/-- R139: the current function of group `g`. -/
def fnCurrentOf (p : List Byte) (g : Nat) : BitVec 4 :=
  let b := payloadByte p (14 + (6 - g) / 2)
  if g % 2 = 0 then b.extractLsb 7 4 else b.extractLsb 3 0

/-- R139, R199: the tables take a CMD6 payload. -/
def Card.withSwitchStatus (c : Card) (p : List Byte) : Card :=
  { c with
    fnSupport := PerGroup.ofFn (fnSupportOf p)
    fnCurrent := PerGroup.ofFn (fnCurrentOf p)
    fnValid := true }

/-! ## Reading Card fields from outside (R27, R302, R334) -/

/-- The Card register block as a reader may see it: refused while no Card is allocated. -/
def State.readCard (s : State) : Except Refusal Card :=
  if s.card.allocated then .ok s.card else .error .cardNotAllocated

/-- The version-1.0 fields of `card.csd`: refused unless the structure field selects them (R27). -/
def Card.readCsdV1 (c : Card) : Except Refusal CsdV1 :=
  if csdStructure c.csd = 0#2 then .ok (csdV1 c.csd) else .error .csdLayoutNotSelected

/-- The version-2.0 fields of `card.csd`: refused unless the structure field selects them (R27). -/
def Card.readCsdV2 (c : Card) : Except Refusal CsdV2 :=
  if csdStructure c.csd = 1#2 then .ok (csdV2 c.csd) else .error .csdLayoutNotSelected

end Sys2Proof.Machine
end

