-- ==== Sys2Proof/Machine/Ops.lean ====
section
/-! DEFINITION. The named operations over the state: system memory, register updates, the environment's answers, the ten
host-port calls (00_scope.md R11), the framing hook (41_crc7_framer.md R164), `exchange` (R14), `try` (R13), payload
acquisition (42_command_controllers.md R207) and the beginning and end of a request. The block takes no exceptions (R328):
what stands here in the place of exception entry is `State.finish`, the return of a result to the caller. -/

namespace Sys2Proof.Machine

/-! ## System memory (R12, R60 c) -/

/-- The byte at an address. -/
def Memory.read (m : Memory) (a : Nat) : Byte :=
  match m with
  | [] => unlistedByte
  | (k, v) :: rest => if k = a then v else Memory.read rest a

/-- Memory with one byte written, in canonical form: the list stays sorted, and a byte an unlisted address reads as is not
listed. -/
def Memory.write (m : Memory) (a : Nat) (b : Byte) : Memory :=
  match m with
  | [] => if b = unlistedByte then [] else [(a, b)]
  | (k, v) :: rest =>
    if a < k then (if b = unlistedByte then (k, v) :: rest else (a, b) :: (k, v) :: rest)
    else if a = k then (if b = unlistedByte then rest else (a, b) :: rest)
    else (k, v) :: Memory.write rest a b

/-- The canonical form: addresses strictly rising, no entry equal to what an unlisted address reads as. -/
def Memory.wf (m : Memory) : Bool :=
  match m with
  | [] => true
  | (k, v) :: rest => decide (v ≠ unlistedByte) && rest.all (fun c => decide (k < c.1)) && Memory.wf rest

/-- The address of byte `i` of a buffer (R64). Addresses wrap at 64 bits: DESIGN CHOICE, log 7. -/
def byteAddress (a : Addr) (i : Nat) : Nat := (a + BitVec.ofNat 64 i).toNat

/-- `MemRead(addr, n)` (R12). -/
def Memory.readBytes (m : Memory) (a : Addr) (n : Nat) : List Byte :=
  (List.range n).map (fun i => m.read (byteAddress a i))

/-- `MemWrite(addr, n, bytes)` (R12), `n` being the number of bytes. -/
def Memory.writeBytes (m : Memory) (a : Addr) (bytes : List Byte) : Memory :=
  match bytes with
  | [] => m
  | b :: rest => Memory.writeBytes (m.write a.toNat b) (a + 1) rest

/-! ## Register updates -/

/-- The Card register block takes a value. -/
def State.setCard (s : State) (c : Card) : State := { s with card := c }

/-- The command register takes a value. -/
def State.setCmd (s : State) (c : CmdReg) : State := { s with cmd := c }

/-- The payload buffer is acquired, filled or released. -/
def State.setPayload (s : State) (p : Option Payload) : State := { s with payload := p }

/-- The control point moves. -/
def State.setControl (s : State) (c : Control) : State := { s with control := c }

/-- System memory takes a value. -/
def State.setMem (s : State) (m : Memory) : State := { s with mem := m }

/-- The environment's scripts move on, and `n` free values have been drawn. -/
def State.setEnv (s : State) (e : Environment) (n : Nat) : State := { s with env := e, draws := s.draws + n }

/-- A host-port call is recorded (R358). -/
def State.log (s : State) (e : HostEvent) : State := { s with trace := e :: s.trace }

/-- `mode <- m` (R30): exactly one bit is assigned. -/
def State.setMode (s : State) (m : ModeName) : State := s.setCard { s.card with mode := m.bits }

/-- `cmd.response[0]`. -/
def State.resp0 (s : State) : Word := s.cmd.response.w0

/-! ## The environment's answers (R332)

Each answer is the next entry of its script; when the script has run out it is a free value of Config, a fresh one each
time (log 6). `…Answer` is the answer the next call gets, `take…` the state after it. -/

/-- How many free values a script's next entry takes: none, or one when it has run out. -/
def drawCount {α : Type} (script : List α) : Nat := if script.isEmpty then 1 else 0

/-- The next answer of `send_command`. -/
def State.sendCommandAnswer (s : State) : HostResult := s.env.sendCommands.headD (Config.anySendCommand s.draws)

/-- After a `send_command` has been answered. -/
def State.takeSendCommand (s : State) : State :=
  s.setEnv { s.env with sendCommands := s.env.sendCommands.tail } (drawCount s.env.sendCommands)

/-- The next words of `recv_response`. -/
def State.responseAnswer (s : State) : ResponseWords := s.env.responses.headD (Config.anyResponse s.draws)

/-- After a `recv_response` has been answered. -/
def State.takeResponse (s : State) : State :=
  s.setEnv { s.env with responses := s.env.responses.tail } (drawCount s.env.responses)

/-- The next answer of `send_data`. -/
def State.sendDataAnswer (s : State) : HostResult := s.env.sendDatas.headD (Config.anySendData s.draws)

/-- After a `send_data` has been answered. -/
def State.takeSendData (s : State) : State :=
  s.setEnv { s.env with sendDatas := s.env.sendDatas.tail } (drawCount s.env.sendDatas)

/-- The next result of `recv_data`. -/
def State.recvDataAnswer (s : State) : HostResult :=
  (s.env.recvDatas.headD (Config.anyRecvData s.draws, [])).1

/-- The `n` bytes the next `recv_data` leaves in its buffer: the script's, and free values for those it does not give. -/
def State.recvDataBytes (s : State) (n : Nat) : List Byte :=
  (List.range n).map
    (fun i => (s.env.recvDatas.headD (Config.anyRecvData s.draws, [])).2.getD i (Config.anyByte (s.draws + i)))

/-- After a `recv_data` of `n` bytes has been answered. -/
def State.takeRecvData (s : State) (n : Nat) : State :=
  s.setEnv { s.env with recvDatas := s.env.recvDatas.tail } (drawCount s.env.recvDatas + n)

/-- The next answer of `is_card_inserted`. -/
def State.insertedAnswer (s : State) : Bool := s.env.inserted.headD (Config.anyInserted s.draws)

/-- After an `is_card_inserted` has been answered. -/
def State.takeInserted (s : State) : State :=
  s.setEnv { s.env with inserted := s.env.inserted.tail } (drawCount s.env.inserted)

/-- The next answer of `activate_card`. -/
def State.activatedAnswer (s : State) : Bool := s.env.activated.headD (Config.anyActivated s.draws)

/-- After an `activate_card` has been answered. -/
def State.takeActivated (s : State) : State :=
  s.setEnv { s.env with activated := s.env.activated.tail } (drawCount s.env.activated)

/-- The next answer of `switch_voltage`. -/
def State.voltageAnswer (s : State) : HostResult := s.env.voltages.headD (Config.anyVoltage s.draws)

/-- After a `switch_voltage` has been answered. -/
def State.takeVoltage (s : State) : State :=
  s.setEnv { s.env with voltages := s.env.voltages.tail } (drawCount s.env.voltages)

/-- What the next `add_framing` leaves in `cmd.index[7:6]` and `cmd.crc`. -/
def State.framingAnswer (s : State) : BitVec 2 × BitVec 8 := s.env.framings.headD (Config.anyFraming s.draws)

/-- After an `add_framing` has been answered. -/
def State.takeFraming (s : State) : State :=
  s.setEnv { s.env with framings := s.env.framings.tail } (drawCount s.env.framings)

/-- Whether the next acquisition succeeds (R327). -/
def State.acquireAnswer (s : State) : Bool := s.env.acquisitions.headD (Config.anyAcquired s.draws)

/-- After an acquisition has been answered. -/
def State.takeAcquisition (s : State) : State :=
  s.setEnv { s.env with acquisitions := s.env.acquisitions.tail } (drawCount s.env.acquisitions)

/-! ## The host port (R11, R333) -/

/-- `host.send_command(cmd)`. -/
def hostSendCommand (s : State) : State × Result :=
  (s.takeSendCommand.log (.sendCommand s.cmd s.sendCommandAnswer), hostCode s.sendCommandAnswer)

/-- `host.recv_response(cmd)`: it writes `response[0..3]` and returns nothing. -/
def hostRecvResponse (s : State) : State :=
  (s.takeResponse.setCmd { s.cmd with response := s.responseAnswer }).log (.recvResponse s.responseAnswer)

/-- `host.send_data(desc)`: on `Well` the host has read `desc.capacity` bytes from `tx_buffer`. -/
def hostSendData (d : Descriptor) (s : State) : State × Result :=
  let bytes :=
    if s.sendDataAnswer = .well then s.mem.readBytes (d.txBuffer.getD 0) d.capacity.toNat else []
  (s.takeSendData.log (.sendData d bytes s.sendDataAnswer), hostCode s.sendDataAnswer)

/-- The receive buffer takes the bytes the host left in it. -/
def State.receive (s : State) (b : Option Buffer) (bytes : List Byte) : State :=
  match b with
  | some .payload => s.setPayload (some ⟨bytes.length, bytes⟩)
  | some (.system a) => s.setMem (s.mem.writeBytes a bytes)
  | none => s

/-- `host.recv_data(desc)`: it leaves `desc.capacity` bytes in `rx_buffer`, the received data on `Well` and any value on an
error (R69, R333). -/
def hostRecvData (d : Descriptor) (s : State) : State × Result :=
  let n := d.capacity.toNat
  (((s.takeRecvData n).receive d.rxBuffer (s.recvDataBytes n)).log (.recvData d (s.recvDataBytes n) s.recvDataAnswer), hostCode s.recvDataAnswer)

/-- `host.is_card_inserted()`. -/
def hostIsCardInserted (s : State) : State × Bool :=
  (s.takeInserted.log (.isCardInserted s.insertedAnswer), s.insertedAnswer)

/-- `host.set_bus_width(w)` with the record next to it (R33). -/
def hostSetBusWidth (w : BusWidth) (s : State) : State :=
  (s.setCard { s.card with busWidth := w }).log (.setBusWidth w)

/-- `host.set_clock_frequency(c)` with the record next to it (R33). -/
def hostSetClockFrequency (c : ClockClass) (s : State) : State :=
  (s.setCard { s.card with clockClass := c }).log (.setClockFrequency c)

/-- `host.activate_card(ACTIVATE_TIMEOUT)`. -/
def hostActivateCard (s : State) : State × Bool :=
  (s.takeActivated.log (.activateCard s.params.activateTimeout s.activatedAnswer), s.activatedAnswer)

/-- `host.switch_voltage(1V8)`. -/
def hostSwitchVoltage (s : State) : State × Result :=
  (s.takeVoltage.log (.switchVoltage1V8 s.voltageAnswer), hostCode s.voltageAnswer)

/-- `host.add_framing(cmd)` (R164, I4): the hook's bits 7:6 of `cmd.index` and its `cmd.crc`. -/
def hostAddFraming (s : State) : State :=
  (s.takeFraming.setCmd
    { s.cmd with
      index := s.framingAnswer.1 ++ (s.cmd.index.extractLsb 5 0 : BitVec 6)
      crc := s.framingAnswer.2 }).log (.addFraming s.framingAnswer.1 s.framingAnswer.2)

/-! ## Framing and the exchange -/

/-- The core's framer on the command register (R164, CoreCRC7): the start bits first, then the CRC byte. -/
def CmdReg.framed (c : CmdReg) : CmdReg :=
  let ib := startBits c.index
  { c with index := ib, crc := crcByte (crc7 (commandBuffer ib c.argument)) }

/-- The 48 bits that go on the wire (R80). -/
def CmdReg.wire (c : CmdReg) : BitVec 48 := frameBits c.index c.argument c.crc

/-- `new(i, a, t)` (R180): a fresh command register. -/
def newCmd (i : BitVec 6) (a : Word) (t : ResponseType) : CmdReg :=
  { CmdReg.blank with index := i.zeroExtend 8, argument := a, responseType := t }

/-- `new(i, a, t)` with a data descriptor attached. -/
def newDataCmd (i : BitVec 6) (a : Word) (t : ResponseType) (d : Option Descriptor) : CmdReg :=
  { newCmd i a t with data := d }

/-! ## The control point (R50) -/

/-- The pseudocode goes on at `p`, with `stack` waiting. -/
def State.goto (s : State) (p : Point) (stack : List Frame) : State := s.setControl (.running p stack)

/-- A controller's `return r` to the innermost of `stack` (R13). -/
def State.giveBack (s : State) (r : Result) (stack : List Frame) : State := s.goto (.returned r) stack

/-- A public operation's `return ok`, with the diagnostic of R306. -/
def State.endWith (s : State) (ok : Bool) (code : Option Result) (stack : List Frame) : State :=
  s.goto (.ended ok code) stack

/-- `try` (R13), once the call has returned `r`: go on after `Well`, pass any other result up unchanged (R322). -/
def afterCall (r : Result) (stack : List Frame) (s : State) (k : State → State) : State :=
  if r = .well then k s else s.giveBack r stack

/-- `check_r1(cmd)` (R185). -/
def r1Code (s : State) : Result := if r1Ok s.resp0 then .well else .anyError

/-! ## `exchange(cmd)` (R14): its host-port calls one at a time -/

/-- `exchange(cmd)` up to its first host-port call. Under CoreCRC7 `frame(cmd)` (R164) is no call. -/
def startExchange (c : CmdReg) (stack : List Frame) (s : State) : State :=
  match s.host.framing with
  | .coreCRC7 => (s.setCmd c.framed).goto .sendCommand stack
  | .hostOverride => (s.setCmd c).goto .addFraming stack

/-- `host.add_framing(cmd)` (R164). -/
def addFramingCall (stack : List Frame) (s : State) : State := (hostAddFraming s).goto .sendCommand stack

/-- `host.send_command(cmd)`: its error, and `Well` where no response is expected, are the result of the exchange. -/
def sendCommandCall (stack : List Frame) (s : State) : State :=
  let p := hostSendCommand s
  if p.2 = .well ∧ s.cmd.responseType ≠ .none then p.1.goto .recvResponse stack else p.1.giveBack p.2 stack

/-- `host.recv_response(cmd)`. -/
def recvResponseCall (stack : List Frame) (s : State) : State := (hostRecvResponse s).giveBack .well stack

/-! ## The payload buffer (R40, R207) -/

/-- `acquire(n)`: the payload buffer, or a failure the environment draws. -/
def acquire (n : Nat) (s : State) : State × Bool :=
  if s.acquireAnswer then (s.takeAcquisition.setPayload (some ⟨n, []⟩), true) else (s.takeAcquisition, false)

/-- `release()`, then `return r`. -/
def releaseGiveBack (r : Result) (stack : List Frame) (s : State) : State := (s.setPayload none).giveBack r stack

/-- The received payload bytes. -/
def State.payloadBytes (s : State) : List Byte :=
  match s.payload with
  | some p => p.bytes
  | none => []

/-! ## The beginning and the end of a request -/

/-- An operation or controller begins: no local, descriptor or payload of an earlier one is left (R36, R44), and its own
trace starts (R358). -/
def State.begin (s : State) : State :=
  { s with cmd := .blank, payload := none, outcome := none, trace := [] }

/-- `return` (R13, R358): the result goes to the caller, and no command register, descriptor, payload or local is left
(R354). -/
def State.finish (s : State) (ok : Bool) (code : Option Result) : State :=
  { s with cmd := .blank, payload := none, control := .idle, callerDesc := none, outcome := some ⟨ok, code, none⟩ }

/-- A controller's `return r`. -/
def State.finishCode (s : State) (r : Result) : State := s.finish (decide (r = .well)) (some r)

/-- A request other than `allocate_device`: refused while another is in progress (R74); false with `NullPtr` and no host-port
call while no Card is allocated (R98, R351); else its pseudocode is entered. -/
def runOperation (enter : List Frame → State → State) (s : State) : Host.Outcome State Fault Refusal :=
  if s.control ≠ .idle then .refused .overlappingRequest
  else if s.card.allocated = false then .next (s.begin.finish false (some .nullPtr))
  else .next (enter [] s.begin)

end Sys2Proof.Machine
end

