-- ==== Sys2Proof/Machine/Operands.lean ====
section
/-! DEFINITION. The operand forms: the fixed lengths of R8, the arguments computed from the state (30_encoding.md R88, R91,
R94), the data descriptors (10_state.md R38, R39) and the chunk and limit arithmetic of the engines (R261, R262, R263). -/

namespace Sys2Proof.Machine

/-! ## Lengths (R8) -/

/-- `BLOCK_LEN`. -/
def blockLen : BitVec 32 := 512#32

/-- `SWITCH_BLOCK_LEN`. -/
def switchBlockLen : BitVec 32 := 64#32

/-- `SCR_LEN`. -/
def scrLen : BitVec 32 := 8#32

/-! ## Arguments -/

/-- `rca16` (R88) of the Card. -/
def Card.rcaArg (c : Card) : Word := rca16 c.rca

/-- R190: the argument of CMD7. -/
def selectArg (c : Card) (sel : Bool) : Word := if sel then c.rcaArg else 0#32

/-- R190: a response is expected when the RCA field of the argument is not 0. -/
def selectResponse (arg : Word) : ResponseType :=
  if (arg.extractLsb 31 16 : BitVec 16) ≠ 0#16 then .r1 else .none

/-- R91, R293: the ACMD41 argument. The window's bits 23:0 are taken (log 14). -/
def acmd41Arg (s : State) (v2 : Bool) : Word :=
  (s.params.ocrVoltageWindow &&& 0x00FFFFFF#32)
    ||| (if v2 then 0x40000000#32 else 0#32)
    ||| (if v2 && s.host.supports1V8 then 0x01000000#32 else 0#32)

/-- R71, R261: the card address of block `b`. -/
def Card.address (c : Card) (b : Nat) : Word :=
  if c.highCapacity then BitVec.ofNat 32 b else BitVec.ofNat 32 (b * c.blockSize.toNat)

/-! ## Descriptors -/

/-- ReadEnable (R38). -/
def readEnable : BitVec 3 := 1#3

/-- AutoStopAfterMultiBlock (R38). -/
def autoStop : BitVec 3 := 2#3

/-- The descriptor of a payload read of `n` bytes (R189, R199). -/
def payloadDescriptor (n : BitVec 32) : Descriptor where
  blockSize := n
  blockCount := 1
  capacity := n.zeroExtend 64
  rxBuffer := some .payload
  txBuffer := none
  flags := readEnable

/-- The descriptor of a transaction of `n` blocks (R264, R265). -/
def blockDescriptor (s : State) (dir : Direction) (p : Addr) (n : Nat) : Descriptor where
  blockSize := s.card.blockSize
  blockCount := BitVec.ofNat 32 n
  capacity := BitVec.ofNat 64 (n * s.card.blockSize.toNat)
  rxBuffer := match dir with | .read => some (.system p) | .write => none
  txBuffer := match dir with | .read => none | .write => some p
  flags :=
    (match dir with | .read => readEnable | .write => 0#3)
      ||| (if 1 < n ∧ s.host.autoCmd12 = true then autoStop else 0#3)

/-! ## Chunks and limits -/

/-- R262, R268: the size of the next chunk. R8 gives `HOST_MAX_BLOCK_COUNT` as at least 1; a 0 is taken as 1 (log 10). -/
def chunkSize (h : HostPort) (remaining : Nat) : Nat := min remaining (max 1 h.maxBlockCount)

/-- Whether `k` has reached a limit (R263, R291); `none` is ∞. -/
def limitReached (limit : Option Nat) (k : Nat) : Bool :=
  match limit with
  | none => false
  | some l => decide (l ≤ k)

/-- R260 checks 2 to 4. -/
def checkRange (c : Card) (start count : Nat) : Result :=
  if count = 0 then .argFault
  else if c.blockCount.toNat < start + count then .argFault
  else if c.highCapacity = false ∧ 2 ^ 32 ≤ (start + count - 1) * c.blockSize.toNat then .argFault
  else .well

/-- R260: the argument checks of `rw_blocks`. -/
def checkArgs (c : Card) (buffer : Option Addr) (start count : Nat) : Result :=
  match buffer with
  | none => .nullPtr
  | some _ => checkRange c start count

end Sys2Proof.Machine
end

