-- ==== Sys2Proof/Machine/Identification.lean ====
section
/-! DEFINITION. The identification commands (42_command_controllers.md section 2): CMD0, CMD8, CMD55, ACMD41, CMD2, CMD3,
CMD11. A controller is its rule's pseudocode cut at its calls: `enter…` is a call of it, with the stack of those that wait for
it; `…Answered` goes on when the call it made has returned `r`; `…Call` is a host-port call of it. Its `exec` is the direct
request for it. -/

namespace Sys2Proof.Machine

/-! ## CMD0 -/

/-- GoIdle (R181) up to its pre-drain. -/
def enterGoIdle (stack : List Frame) (s : State) : State := (s.setCmd (newCmd 0#6 0#32 .none)).goto .drain stack

/-- GoIdle's `host.recv_response`; the words are discarded and CMD0 is sent. -/
def drainCall (stack : List Frame) (s : State) : State :=
  startExchange (newCmd 0#6 0#32 .none) (.goIdle :: stack) (hostRecvResponse s)

/-- GoIdle after its exchange. -/
def goIdleAnswered (r : Result) (stack : List Frame) (s : State) : State :=
  afterCall r stack s fun s =>
  ((s.setMode .idle).setCard { (s.setMode .idle).card with rca := 0#16 }).giveBack .well stack

/-- CMD0, R181. -/
def execCmd0 (s : State) : Host.Outcome State Fault Refusal := runOperation enterGoIdle s

/-! ## CMD8 -/

/-- SendIfCond (R182) up to its loop. -/
def enterSendIfCond (stack : List Frame) (s : State) : State := s.goto (.ifCondAttempt 1 .checkErr) stack

/-- The head of SendIfCond's loop: attempt `k`, or the last failure once the attempts are used up. -/
def ifCondAttempt (k : Nat) (last : Result) (stack : List Frame) (s : State) : State :=
  if s.params.cmd8MaxAttempts < k then s.giveBack last stack
  else startExchange (newCmd 8#6 cmd8Arg .r7) (.ifCond k :: stack) s

/-- SendIfCond after the exchange of attempt `k`. -/
def ifCondAnswered (k : Nat) (r : Result) (stack : List Frame) (s : State) : State :=
  if r = .well ∧ r7Ok s.resp0 = true then s.giveBack .well stack
  else s.goto (.ifCondAttempt (k + 1) (if r = .well then .checkErr else r)) stack

/-- CMD8, R182. -/
def execCmd8 (s : State) : Host.Outcome State Fault Refusal := runOperation enterSendIfCond s

/-! ## CMD55 -/

/-- AppCmdPrefix (R183). -/
def enterAppCmdPrefix (stack : List Frame) (s : State) : State :=
  startExchange (newCmd 55#6 s.card.rcaArg .r1) (.appPrefix :: stack) s

/-- AppCmdPrefix after its exchange. -/
def appPrefixAnswered (r : Result) (stack : List Frame) (s : State) : State :=
  afterCall r stack s fun s =>
  if r1Ok s.resp0 = false then s.giveBack .anyError stack
  else if appCmdSet s.resp0 = false then s.giveBack .notSupported stack
  else s.giveBack .well stack

/-- CMD55, R183. -/
def execCmd55 (s : State) : Host.Outcome State Fault Refusal := runOperation enterAppCmdPrefix s

/-! ## ACMD41 -/

/-- SendOpCond (R184) up to its prefix (R206). -/
def enterSendOpCond (a : Word) (stack : List Frame) (s : State) : State := enterAppCmdPrefix (.opCondPrefix a :: stack) s

/-- SendOpCond after its prefix. The bits R91 reserves are sent as 0 (R95; log 27). -/
def opCondPrefixAnswered (a : Word) (r : Result) (stack : List Frame) (s : State) : State :=
  afterCall r stack s fun s => startExchange (newCmd 41#6 (acmd41Sent a) .r3) (.opCond :: stack) s

/-- SendOpCond after its exchange. -/
def opCondAnswered (r : Result) (stack : List Frame) (s : State) : State :=
  afterCall r stack s fun s =>
  if ocrPoweredUp s.resp0 = false then s.giveBack .retry stack
  else (s.setCard { s.card with ocr := s.resp0 }).giveBack .well stack

/-- ACMD41, R184. -/
def execAcmd41 (a : Word) (s : State) : Host.Outcome State Fault Refusal := runOperation (enterSendOpCond a) s

/-! ## CMD2 and the CID -/

/-- The CID read of R186 and R191 after its exchange: `card.cid` takes the register of the R2 response. -/
def cidAnswered (r : Result) (stack : List Frame) (s : State) : State :=
  afterCall r stack s fun s =>
  (s.setCard { s.card with cid := registerOfWords s.cmd.response, cidValid := true }).giveBack .well stack

/-- AllSendCID (R186). -/
def enterAllSendCid (stack : List Frame) (s : State) : State := startExchange (newCmd 2#6 0#32 .r2) (.cid :: stack) s

/-- CMD2, R186. -/
def execCmd2 (s : State) : Host.Outcome State Fault Refusal := runOperation enterAllSendCid s

/-! ## CMD3 -/

/-- IssueRCA (R187). -/
def enterIssueRca (stack : List Frame) (s : State) : State := startExchange (newCmd 3#6 0#32 .r6) (.rca :: stack) s

/-- IssueRCA after its exchange. -/
def rcaAnswered (r : Result) (stack : List Frame) (s : State) : State :=
  afterCall r stack s fun s =>
  if r6Ok s.resp0 = false then s.giveBack .anyError stack
  else (s.setCard { s.card with rca := r6Rca s.resp0 }).giveBack .well stack

/-- CMD3, R187. -/
def execCmd3 (s : State) : Host.Outcome State Fault Refusal := runOperation enterIssueRca s

/-! ## CMD11 -/

/-- The guard of SwitchVoltage (R194). -/
def voltageSwitchAllowed (s : State) : Bool :=
  s.host.supports1V8 && ocrS18A s.card.ocr && s.card.inMode .ready

/-- SwitchVoltage (R194). -/
def enterSwitchVoltage (stack : List Frame) (s : State) : State :=
  if voltageSwitchAllowed s = false then s.giveBack .notSupported stack
  else startExchange (newCmd 11#6 0#32 .r1) (.voltage :: stack) s

/-- SwitchVoltage after its exchange. -/
def voltageAnswered (r : Result) (stack : List Frame) (s : State) : State :=
  afterCall r stack s fun s =>
  afterCall (r1Code s) stack s fun s =>
  s.goto .voltage stack

/-- SwitchVoltage's `host.switch_voltage(1V8)`. -/
def voltageCall (stack : List Frame) (s : State) : State :=
  let p := hostSwitchVoltage s
  afterCall p.2 stack p.1 fun s =>
  (s.setCard { s.card with voltage := 1#1 }).giveBack .well stack

/-- CMD11, R194. -/
def execCmd11 (s : State) : Host.Outcome State Fault Refusal := runOperation enterSwitchVoltage s

end Sys2Proof.Machine
end

