-- ==== Sys2Proof/Machine/Selection.lean ====
section
/-! DEFINITION. Selection and status (42_command_controllers.md section 4): CMD7, CMD13, CMD12, CMD15; and the check of an
R1 that most controllers end with (R185). -/

namespace Sys2Proof.Machine

/-- `exchange(cmd)` and then `check_r1(cmd)`: the pseudocode that R190 (select), R196 to R198, R200 to R204 and R211 share. -/
def startChecked (c : CmdReg) (stack : List Frame) (s : State) : State := startExchange c (.checked :: stack) s

/-- After the exchange of `startChecked`. -/
def checkedAnswered (r : Result) (stack : List Frame) (s : State) : State :=
  afterCall r stack s fun s => s.giveBack (r1Code s) stack

/-- SelectCard (R190): a deselect, or a select at RCA 0, expects no response. -/
def enterSelectCard (sel : Bool) (stack : List Frame) (s : State) : State :=
  let a := selectArg s.card sel
  let t := selectResponse a
  startExchange (newCmd 7#6 a t) ((if t = .r1 then Frame.checked else Frame.sent) :: stack) s

/-- SelectCard after an exchange with no response. -/
def sentAnswered (r : Result) (stack : List Frame) (s : State) : State := s.giveBack r stack

/-- CMD7, R190. -/
def execCmd7 (sel : Bool) (s : State) : Host.Outcome State Fault Refusal := runOperation (enterSelectCard sel) s

/-- GetStatus (R192), one exchange. -/
def enterGetStatus (stack : List Frame) (s : State) : State :=
  startExchange (newCmd 13#6 s.card.rcaArg .r1) (.status :: stack) s

/-- GetStatus after its exchange. -/
def statusAnswered (r : Result) (stack : List Frame) (s : State) : State :=
  afterCall r stack s fun s =>
  if r1Ok s.resp0 = false then s.giveBack .anyError stack
  else if s.resp0.getLsbD 8 = false ∨ isProgramming s.resp0 = true then s.giveBack .notReady stack
  else s.giveBack .well stack

/-- CMD13, R192. -/
def execCmd13 (s : State) : Host.Outcome State Fault Refusal := runOperation enterGetStatus s

/-- StopTransmission (R193). -/
def enterStopTransmission (stack : List Frame) (s : State) : State :=
  startExchange (newCmd 12#6 0#32 .r1b) (.stop :: stack) s

/-- StopTransmission after its exchange: every failure is `TransStopFail`. -/
def stopAnswered (r : Result) (stack : List Frame) (s : State) : State :=
  if r = .well ∧ r1Ok s.resp0 = true then s.giveBack .well stack else s.giveBack .transStopFail stack

/-- CMD12, R193. -/
def execCmd12 (s : State) : Host.Outcome State Fault Refusal := runOperation enterStopTransmission s

/-- GoInactive (R195). -/
def enterGoInactive (stack : List Frame) (s : State) : State :=
  startExchange (newCmd 15#6 s.card.rcaArg .none) (.inactive :: stack) s

/-- GoInactive after its exchange. -/
def inactiveAnswered (r : Result) (stack : List Frame) (s : State) : State :=
  afterCall r stack s fun s => (s.setMode .inactive).giveBack .well stack

/-- CMD15, R195. -/
def execCmd15 (s : State) : Host.Outcome State Fault Refusal := runOperation enterGoInactive s

end Sys2Proof.Machine
end

