-- ==== Sys2Proof/Machine/BusConfig.lean ====
section
/-! DEFINITION. Bus configuration (42_command_controllers.md section 5): CMD16, ACMD6, CMD6. -/

namespace Sys2Proof.Machine

/-- SetBlockLength (R196). -/
def enterSetBlockLength (len : Word) (stack : List Frame) (s : State) : State := startChecked (newCmd 16#6 len .r1) stack s

/-- CMD16, R196. -/
def execCmd16 (len : Word) (s : State) : Host.Outcome State Fault Refusal := runOperation (enterSetBlockLength len) s

/-- SetBusWidth (R211) up to its prefix: no `host.set_bus_width` call. -/
def enterSetBusWidth (width : Nat) (stack : List Frame) (s : State) : State :=
  if width ≠ 1 ∧ width ≠ 4 then s.giveBack .argFault stack else enterAppCmdPrefix (.widthPrefix width :: stack) s

/-- SetBusWidth after its prefix. -/
def widthPrefixAnswered (width : Nat) (r : Result) (stack : List Frame) (s : State) : State :=
  afterCall r stack s fun s => startChecked (newCmd 6#6 (acmd6Arg width) .r1) stack s

/-- ACMD6, R211. -/
def execAcmd6 (width : Nat) (s : State) : Host.Outcome State Fault Refusal := runOperation (enterSetBusWidth width) s

/-- SelectFunction (R199): the operand check, the acquisition, the exchange. -/
def enterSelectFunction (mode : SwitchMode) (g i : Nat) (stack : List Frame) (s : State) : State :=
  if g < 1 ∨ 6 < g ∨ 15 < i then s.giveBack .argFault stack
  else
    let p := acquire 64 s
    if p.2 = false then p.1.giveBack .memErr stack
    else
      startExchange (newDataCmd 6#6 (cmd6Arg mode g i) .r1 (some (payloadDescriptor switchBlockLen))) (.table :: stack) p.1

/-- SelectFunction after its exchange. -/
def tableAnswered (r : Result) (stack : List Frame) (s : State) : State :=
  if r ≠ .well then releaseGiveBack r stack s
  else if r1Ok s.resp0 = false then releaseGiveBack .anyError stack s
  else s.goto .tableData stack

/-- SelectFunction's `host.recv_data`. -/
def tableDataCall (stack : List Frame) (s : State) : State :=
  let p := hostRecvData (payloadDescriptor switchBlockLen) s
  if p.2 ≠ .well then releaseGiveBack p.2 stack p.1
  else releaseGiveBack .well stack (p.1.setCard (p.1.card.withSwitchStatus p.1.payloadBytes))

/-- CMD6, R199. -/
def execCmd6 (mode : SwitchMode) (g i : Nat) (s : State) : Host.Outcome State Fault Refusal :=
  runOperation (enterSelectFunction mode g i) s

end Sys2Proof.Machine
end

