-- ==== Sys2Proof/Machine/DataCommands.lean ====
section
/-! DEFINITION. The command phases of the data-transfer and erase commands (42_command_controllers.md section 6): CMD17,
CMD18, CMD24, CMD25, CMD32, CMD33, CMD38. A direct request for a data command takes the descriptor handed over with it, as it
stands (log 12). -/

namespace Sys2Proof.Machine

/-- ReadSingleBlock (R197). -/
def enterReadSingleBlock (addr : Word) (d : Option Descriptor) (stack : List Frame) (s : State) : State :=
  startChecked (newDataCmd 17#6 addr .r1 d) stack s

/-- CMD17, R197. -/
def execCmd17 (addr : Word) (s : State) : Host.Outcome State Fault Refusal :=
  runOperation (enterReadSingleBlock addr s.callerDesc) s

/-- ReadMultipleBlock (R198). -/
def enterReadMultipleBlock (addr : Word) (d : Option Descriptor) (stack : List Frame) (s : State) : State :=
  startChecked (newDataCmd 18#6 addr .r1 d) stack s

/-- CMD18, R198. -/
def execCmd18 (addr : Word) (s : State) : Host.Outcome State Fault Refusal :=
  runOperation (enterReadMultipleBlock addr s.callerDesc) s

/-- WriteBlock (R200). -/
def enterWriteBlock (addr : Word) (d : Option Descriptor) (stack : List Frame) (s : State) : State :=
  startChecked (newDataCmd 24#6 addr .r1 d) stack s

/-- CMD24, R200. -/
def execCmd24 (addr : Word) (s : State) : Host.Outcome State Fault Refusal :=
  runOperation (enterWriteBlock addr s.callerDesc) s

/-- WriteMultipleBlock (R201). -/
def enterWriteMultipleBlock (addr : Word) (d : Option Descriptor) (stack : List Frame) (s : State) : State :=
  startChecked (newDataCmd 25#6 addr .r1 d) stack s

/-- CMD25, R201. -/
def execCmd25 (addr : Word) (s : State) : Host.Outcome State Fault Refusal :=
  runOperation (enterWriteMultipleBlock addr s.callerDesc) s

/-- SetEraseBlockStart (R202). -/
def enterSetEraseBlockStart (addr : Word) (stack : List Frame) (s : State) : State :=
  startChecked (newCmd 32#6 addr .r1) stack s

/-- CMD32, R202. -/
def execCmd32 (addr : Word) (s : State) : Host.Outcome State Fault Refusal := runOperation (enterSetEraseBlockStart addr) s

/-- SetEraseBlockEnd (R203). -/
def enterSetEraseBlockEnd (addr : Word) (stack : List Frame) (s : State) : State :=
  startChecked (newCmd 33#6 addr .r1) stack s

/-- CMD33, R203. -/
def execCmd33 (addr : Word) (s : State) : Host.Outcome State Fault Refusal := runOperation (enterSetEraseBlockEnd addr) s

/-- Erase (R204). -/
def enterErase (stack : List Frame) (s : State) : State := startChecked (newCmd 38#6 0#32 .r1b) stack s

/-- CMD38, R204. -/
def execCmd38 (s : State) : Host.Outcome State Fault Refusal := runOperation enterErase s

end Sys2Proof.Machine
end

