-- ==== Sys2Proof/Machine/BlockEngine.lean ====
section
/-! DEFINITION. The block read, write and erase sequencer (44_block_transfer.md) and the operations it serves,
`rw_blocks` (R304) and `format_blocks` (R305). -/

namespace Sys2Proof.Machine

/-! ## Transfers -/

/-- The command phase of an attempt (R264, R265): single or multiple block, read or write. -/
def enterDataCommand (dir : Direction) (n : Nat) (addr : Word) (d : Descriptor) (stack : List Frame) (s : State) : State :=
  match dir with
  | .read => if n = 1 then enterReadSingleBlock addr (some d) stack s else enterReadMultipleBlock addr (some d) stack s
  | .write => if n = 1 then enterWriteBlock addr (some d) stack s else enterWriteMultipleBlock addr (some d) stack s

/-- The data phase of an attempt (R264, R265). -/
def dataPhase (dir : Direction) (d : Descriptor) (s : State) : State × Result :=
  match dir with
  | .read => hostRecvData d s
  | .write => hostSendData d s

/-- R266: the result of a twice-failed data phase. -/
def dataFailCode : Direction → Result
  | .read => .recvDataFail
  | .write => .sendDataFail

/-- R262: the cursor after a transaction of `n` blocks. -/
def Cursor.advance (cur : Cursor) (n : Nat) (blockSize : BitVec 32) : Cursor :=
  { cur with
    buffer := cur.buffer + BitVec.ofNat 64 (n * blockSize.toNat)
    block := cur.block + n
    remaining := cur.remaining - n
    retry := 0
    polls := 0 }

/-- The number of blocks of the transaction at a cursor (R262). -/
def Cursor.blocks (cur : Cursor) (s : State) : Nat := chunkSize s.host cur.remaining

/-- The head of `wait_ready`'s loop (R263): a status poll. -/
def statusPoll (cur : Cursor) (stack : List Frame) (s : State) : State := enterGetStatus (.polled cur :: stack) s

/-- R264, R265: the descriptor and the command phase. -/
def startAttempt (cur : Cursor) (stack : List Frame) (s : State) : State :=
  enterDataCommand cur.dir (cur.blocks s) (s.card.address cur.block)
    (blockDescriptor s cur.dir cur.buffer (cur.blocks s)) (.commanded cur :: stack) s

/-- After a status poll (R263): the attempt goes on, another poll, `Timeout`, or the failure. -/
def polledAnswered (cur : Cursor) (r : Result) (stack : List Frame) (s : State) : State :=
  match r with
  | .well => startAttempt cur stack s
  | .notReady =>
    if limitReached s.params.statusPollLimit (cur.polls + 1) then s.endWith false (some .timeout) stack
    else s.goto (.statusPoll { cur with polls := cur.polls + 1 }) stack
  | r => s.endWith false (some r) stack

/-- After the command phase: the data phase, or the failure; then no data phase starts, and the receive buffer is left as it
was (log 26). -/
def commandedAnswered (cur : Cursor) (r : Result) (stack : List Frame) (s : State) : State :=
  if r = .well then s.goto (.blockData cur) stack else s.endWith false (some r) stack

/-- The end of an attempt whose data phase was started (R264, R266, R262): `received` says whether the data phase succeeded,
`r` is CMD12's result, `Well` where none was sent. A data-phase failure beats a CMD12 failure (R267). A read whose data phase
succeeded and whose CMD12 fails keeps the received bytes: DESIGN CHOICE, log 28. -/
def attemptEnds (cur : Cursor) (received : Bool) (r : Result) (stack : List Frame) (s : State) : State :=
  if received = false then
    if cur.retry < s.params.dataRetry then s.goto (.statusPoll { cur with retry := cur.retry + 1, polls := 0 }) stack
    else s.endWith false (some (dataFailCode cur.dir)) stack
  else if r ≠ .well then s.endWith false (some r) stack
  else if cur.remaining ≤ cur.blocks s then s.endWith true (some .well) stack
  else s.goto (.statusPoll (cur.advance (cur.blocks s) s.card.blockSize)) stack

/-- The data phase (R264, R265), and then CMD12 when there is more than one block and the host does not send it (R267). -/
def blockDataCall (cur : Cursor) (stack : List Frame) (s : State) : State :=
  let p := dataPhase cur.dir (blockDescriptor s cur.dir cur.buffer (cur.blocks s)) s
  let received := decide (p.2 = .well)
  if 1 < cur.blocks s ∧ s.host.autoCmd12 = false then enterStopTransmission (.stopped cur received :: stack) p.1
  else attemptEnds cur received .well stack p.1

/-- `rw_blocks` (R304): the argument checks (R260) and the first transaction (R262). -/
def enterRwBlocks (buffer : Option Addr) (start count : Word) (dir : Direction) (stack : List Frame) (s : State) : State :=
  let r := checkArgs s.card buffer start.toNat count.toNat
  if r ≠ .well then s.endWith false (some r) stack
  else
    s.goto
      (.statusPoll
        { dir := dir, buffer := buffer.getD 0, block := start.toNat, remaining := count.toNat, retry := 0, polls := 0 })
      stack

/-- rw_blocks, R304. -/
def execRwBlocks (buffer : Option Addr) (start count : Word) (dir : Direction) (s : State) :
    Host.Outcome State Fault Refusal :=
  runOperation (enterRwBlocks buffer start count dir) s

/-! ## Erase -/

/-- The head of the erase loop (R268): CMD32 of the next chunk. -/
def eraseChunk (block remaining : Nat) (stack : List Frame) (s : State) : State :=
  enterSetEraseBlockStart (s.card.address block) (.eraseStart block remaining :: stack) s

/-- After CMD32: CMD33 with the inclusive end address. -/
def eraseStartAnswered (block remaining : Nat) (r : Result) (stack : List Frame) (s : State) : State :=
  if r ≠ .well then s.endWith false (some r) stack
  else
    enterSetEraseBlockEnd (s.card.address (block + chunkSize s.host remaining - 1)) (.eraseEnd block remaining :: stack) s

/-- After CMD33: CMD38. -/
def eraseEndAnswered (block remaining : Nat) (r : Result) (stack : List Frame) (s : State) : State :=
  if r ≠ .well then s.endWith false (some r) stack else enterErase (.erased block remaining :: stack) s

/-- After CMD38: the next chunk, or the end. -/
def erasedAnswered (block remaining : Nat) (r : Result) (stack : List Frame) (s : State) : State :=
  let n := chunkSize s.host remaining
  if r ≠ .well then s.endWith false (some r) stack
  else if remaining ≤ n then s.endWith true (some .well) stack
  else s.goto (.eraseChunk (block + n) (remaining - n)) stack

/-- `format_blocks` (R305, R268): the argument checks and the first chunk. -/
def enterFormatBlocks (start count : Word) (stack : List Frame) (s : State) : State :=
  let r := checkRange s.card start.toNat count.toNat
  if r ≠ .well then s.endWith false (some r) stack else s.goto (.eraseChunk start.toNat count.toNat) stack

/-- format_blocks, R305. -/
def execFormatBlocks (start count : Word) (s : State) : Host.Outcome State Fault Refusal :=
  runOperation (enterFormatBlocks start count) s

end Sys2Proof.Machine
end

