-- ==== Sys2Proof/Machine/Negotiator.lean ====
section
/-! DEFINITION. The function-switch negotiator (43_function_switch.md R240 to R245). -/

namespace Sys2Proof.Machine

/-- R241: after the Check phase, the function is supported and selectable. -/
def checkAccepted (c : Card) (g i : Nat) : Bool :=
  (c.fnSupport.get g).getLsbD i && decide ((c.fnCurrent.get g).toNat = i)

/-- R242: after the Switch phase, the function is the one requested. -/
def switchAccepted (c : Card) (g i : Nat) : Bool := decide ((c.fnCurrent.get g).toNat = i)

/-- `negotiate(g, i)` (R240): the Check phase, CMD16(64) first. -/
def enterNegotiate (g i : Nat) (stack : List Frame) (s : State) : State :=
  enterSetBlockLength switchBlockLen (.checkLength g i :: stack) s

/-- The Check phase after its CMD16. -/
def checkLengthAnswered (g i : Nat) (r : Result) (stack : List Frame) (s : State) : State :=
  afterCall r stack s fun s => enterSelectFunction .check g i (.checkTable g i :: stack) s

/-- The Check phase after its CMD6 (R241); then the Switch phase, CMD16(64) again first. -/
def checkTableAnswered (g i : Nat) (r : Result) (stack : List Frame) (s : State) : State :=
  afterCall r stack s fun s =>
  if checkAccepted s.card g i = false then s.giveBack .notSupported stack
  else enterSetBlockLength switchBlockLen (.switchLength g i :: stack) s

/-- The Switch phase after its CMD16. -/
def switchLengthAnswered (g i : Nat) (r : Result) (stack : List Frame) (s : State) : State :=
  afterCall r stack s fun s => enterSelectFunction .switch g i (.switchTable g i :: stack) s

/-- The Switch phase after its CMD6 (R242). -/
def switchTableAnswered (g i : Nat) (r : Result) (stack : List Frame) (s : State) : State :=
  afterCall r stack s fun s =>
  if switchAccepted s.card g i = false then s.giveBack .notSupported stack else s.giveBack .well stack

end Sys2Proof.Machine
end

