-- ==== Sys2Proof/Machine/RegisterReads.lean ====
section
/-! DEFINITION. The register reads (42_command_controllers.md section 3): CMD9, CMD10, ACMD51. -/

namespace Sys2Proof.Machine

/-- GetCSD (R188). -/
def enterGetCsd (stack : List Frame) (s : State) : State :=
  startExchange (newCmd 9#6 s.card.rcaArg .r2) (.csd :: stack) s

/-- GetCSD after its exchange: structures 2 and 3 write nothing. -/
def csdAnswered (r : Result) (stack : List Frame) (s : State) : State :=
  afterCall r stack s fun s =>
  let reg := registerOfWords s.cmd.response
  match csdFields reg with
  | none => s.giveBack .notSupported stack
  | some f => (s.setCard ({ s.card with csd := reg, csdValid := true }.withGeometry f.geometry)).giveBack .well stack

/-- CMD9, R188. -/
def execCmd9 (s : State) : Host.Outcome State Fault Refusal := runOperation enterGetCsd s

/-- SendCID (R191). -/
def enterSendCid (stack : List Frame) (s : State) : State :=
  startExchange (newCmd 10#6 s.card.rcaArg .r2) (.cid :: stack) s

/-- CMD10, R191. -/
def execCmd10 (s : State) : Host.Outcome State Fault Refusal := runOperation enterSendCid s

/-- GetSCR (R189): the acquisition and the prefix. -/
def enterGetScr (stack : List Frame) (s : State) : State :=
  let p := acquire 8 s
  if p.2 = false then p.1.giveBack .memErr stack else enterAppCmdPrefix (.scrPrefix :: stack) p.1

/-- GetSCR after its prefix. -/
def scrPrefixAnswered (r : Result) (stack : List Frame) (s : State) : State :=
  if r ≠ .well then releaseGiveBack r stack s
  else startExchange (newDataCmd 51#6 0#32 .r1 (some (payloadDescriptor scrLen))) (.scr :: stack) s

/-- GetSCR after its exchange. -/
def scrAnswered (r : Result) (stack : List Frame) (s : State) : State :=
  if r ≠ .well then releaseGiveBack r stack s
  else if r1Ok s.resp0 = false then releaseGiveBack .anyError stack s
  else s.goto .scrData stack

/-- The Card with the SCR of a received payload, and the version it gives (R136, R138). -/
def Card.withScr (c : Card) (payload : List Byte) : Card :=
  { c with scr := assembleScr payload, scrValid := true, version := versionOf (assembleScr payload) }

/-- GetSCR's `host.recv_data`. -/
def scrDataCall (stack : List Frame) (s : State) : State :=
  let p := hostRecvData (payloadDescriptor scrLen) s
  if p.2 ≠ .well then releaseGiveBack p.2 stack p.1
  else releaseGiveBack .well stack (p.1.setCard (p.1.card.withScr p.1.payloadBytes))

/-- ACMD51, R189. -/
def execAcmd51 (s : State) : Host.Outcome State Fault Refusal := runOperation enterGetScr s

end Sys2Proof.Machine
end

