-- ==== Sys2Proof/Machine/Lifecycle.lean ====
section
/-! DEFINITION. The card lifecycle orchestrator (45_lifecycle.md): `to_normal`, `detect`, `initial_device`, allocation and
teardown. -/

namespace Sys2Proof.Machine

/-! ## to_normal (R294 to R298) -/

/-- `tolerated` (R298): the negotiator's `NotSupported` is no failure of `to_normal`. -/
def tolerated (r : Result) : Bool := decide (r = .well) || decide (r = .notSupported)

/-- The version gate (R294): CMD6 only from SD 1.1 on. -/
def cmd6Allowed (c : Card) : Bool := decide (1 ≤ c.version.toNat)

/-- The block-size fix-up (R296). -/
def Card.fixBlockSize (c : Card) : Card :=
  if c.blockSize = blockLen then c
  else
    let count := c.capacity / blockLen.zeroExtend 64
    { c with blockCount := count, blockSize := blockLen, capacity := count * blockLen.zeroExtend 64 }

/-- `to_normal` (R294) up to its first call. Its refusal at RCA 0 or in Inactive makes no host-port call and has no result
code (log 11). -/
def enterToNormal (stack : List Frame) (s : State) : State :=
  if s.card.rca = 0#16 ∨ s.card.inMode .inactive = true then s.endWith false none stack
  else enterGetCsd (.normalCsd :: stack) s

/-- `to_normal_failure` (R297): the best-effort deselect; `r` is the diagnostic (R306). -/
def normalFails (r : Result) (stack : List Frame) (s : State) : State :=
  enterSelectCard false (.normalDeselect r :: stack) s

/-- `goto fail` of R294 unless the step succeeded. -/
def normalStep (r : Result) (stack : List Frame) (s : State) (next : State → State) : State :=
  if r = .well then next s else normalFails r stack s

/-- `goto fail` of R294 unless the negotiation is tolerated (R298). -/
def normalTolerates (r : Result) (stack : List Frame) (s : State) (next : State → State) : State :=
  if tolerated r = true then next s else normalFails r stack s

/-- After GetCSD: SelectCard. -/
def normalCsdAnswered (r : Result) (stack : List Frame) (s : State) : State :=
  normalStep r stack s fun s => enterSelectCard true (.normalSelect :: stack) s

/-- After SelectCard: GetSCR. -/
def normalSelectAnswered (r : Result) (stack : List Frame) (s : State) : State :=
  normalStep r stack s fun s => enterGetScr (.normalScr :: stack) s

/-- After GetSCR: the high-speed negotiation when the version allows CMD6, else the clock. -/
def normalScrAnswered (r : Result) (stack : List Frame) (s : State) : State :=
  normalStep r stack s fun s =>
  if cmd6Allowed s.card then enterNegotiate 1 1 (.normalSpeed :: stack) s else s.goto .transferClock stack

/-- After the high-speed negotiation: the clock. -/
def normalSpeedAnswered (r : Result) (stack : List Frame) (s : State) : State :=
  normalTolerates r stack s fun s => s.goto .transferClock stack

/-- `SetBlockLength(BLOCK_LEN)`. -/
def normalSetsLength (stack : List Frame) (s : State) : State := enterSetBlockLength blockLen (.normalLength :: stack) s

/-- `host.set_clock_frequency(F25M)`; then the driver-strength negotiation when the version allows CMD6, else CMD16. -/
def transferClockCall (stack : List Frame) (s : State) : State :=
  let t := hostSetClockFrequency .f25M s
  if cmd6Allowed t.card then enterNegotiate 3 0 (.normalDrive :: stack) t else normalSetsLength stack t

/-- After the driver-strength negotiation: the power limit. -/
def normalDriveAnswered (r : Result) (stack : List Frame) (s : State) : State :=
  normalTolerates r stack s fun s => enterNegotiate 4 0 (.normalPower :: stack) s

/-- After the power-limit negotiation: CMD16(512). -/
def normalPowerAnswered (r : Result) (stack : List Frame) (s : State) : State :=
  normalTolerates r stack s fun s => normalSetsLength stack s

/-- After CMD16(512): the fix-up (R296) and Transfer. -/
def normalLengthAnswered (r : Result) (stack : List Frame) (s : State) : State :=
  normalStep r stack s fun s => ((s.setCard s.card.fixBlockSize).setMode .transfer).endWith true (some .well) stack

/-- After the deselect of R297, whatever it answered: Transfer falls back to StandBy. -/
def normalDeselectAnswered (r : Result) (stack : List Frame) (s : State) : State :=
  (if s.card.inMode .transfer then s.setMode .standBy else s).endWith false (some r) stack

/-- to_normal, R294. -/
def execToNormal (s : State) : Host.Outcome State Fault Refusal := runOperation enterToNormal s

/-! ## detect (R291 to R293) -/

/-- `detect` (R291) up to its insertion wait. -/
def enterDetect (stack : List Frame) (s : State) : State := s.goto (.insertion 0) stack

/-- The insertion wait (R291 step 1, R292 a): one poll, after `k` false answers. -/
def insertionCall (k : Nat) (stack : List Frame) (s : State) : State :=
  let p := hostIsCardInserted s
  if p.2 then p.1.goto .identificationBus stack
  else if limitReached s.params.insertPollLimit (k + 1) then p.1.endWith false (some .timeout) stack
  else p.1.goto (.insertion (k + 1)) stack

/-- R291 step 2, the bus. -/
def identificationBusCall (stack : List Frame) (s : State) : State :=
  (hostSetBusWidth .one s).goto .identificationClock stack

/-- R291 step 2, the clock. -/
def identificationClockCall (stack : List Frame) (s : State) : State :=
  (hostSetClockFrequency .f400K s).goto .activation stack

/-- R291 step 3. A false activation has no result code (log 11); a true one leads to CMD0, step 4. -/
def activationCall (stack : List Frame) (s : State) : State :=
  let p := hostActivateCard s
  if p.2 = false then p.1.endWith false none stack else enterGoIdle (.detectIdle :: stack) p.1

/-- `return false` of `detect` unless the step succeeded. -/
def detectStep (r : Result) (stack : List Frame) (s : State) (next : State → State) : State :=
  if r = .well then next s else s.endWith false (some r) stack

/-- After CMD0: CMD8, step 5. -/
def detectIdleAnswered (r : Result) (stack : List Frame) (s : State) : State :=
  detectStep r stack s fun s => enterSendIfCond (.detectIfCond :: stack) s

/-- After CMD8, whose failure is not fatal: the ACMD41 loop, step 6. -/
def detectIfCondAnswered (r : Result) (stack : List Frame) (s : State) : State :=
  s.goto (.opCondIteration (decide (r = .well)) 1) stack

/-- The head of the ACMD41 loop (R293): iteration `k`, or `Timeout` once the budget is used up. -/
def opCondIteration (v2 : Bool) (k : Nat) (stack : List Frame) (s : State) : State :=
  if s.params.acmd41LoopBudget < k then s.endWith false (some .timeout) stack
  else enterSendOpCond (acmd41Arg s v2) (.detectOpCond v2 k :: stack) s

/-- R291 step 8: CMD2. -/
def detectSendsCid (stack : List Frame) (s : State) : State := enterAllSendCid (.detectCid :: stack) s

/-- After iteration `k` (R293): Ready and the optional 1.8 V switch (step 7), the next iteration, or the failure. -/
def detectOpCondAnswered (v2 : Bool) (k : Nat) (r : Result) (stack : List Frame) (s : State) : State :=
  match r with
  | .well =>
    let t := s.setMode .ready
    if t.host.supports1V8 && ocrS18A t.card.ocr then enterSwitchVoltage (.detectVoltage :: stack) t
    else detectSendsCid stack t
  | .retry => s.goto (.opCondIteration v2 (k + 1)) stack
  | r => s.endWith false (some r) stack

/-- After the 1.8 V switch: CMD2. -/
def detectVoltageAnswered (r : Result) (stack : List Frame) (s : State) : State :=
  detectStep r stack s fun s => detectSendsCid stack s

/-- After CMD2: Identify and CMD3. -/
def detectCidAnswered (r : Result) (stack : List Frame) (s : State) : State :=
  detectStep r stack s fun s => enterIssueRca (.detectRca :: stack) (s.setMode .identify)

/-- After CMD3: StandBy. -/
def detectRcaAnswered (r : Result) (stack : List Frame) (s : State) : State :=
  detectStep r stack s fun s => (s.setMode .standBy).endWith true (some .well) stack

/-- detect, R291. -/
def execDetect (s : State) : Host.Outcome State Fault Refusal := runOperation enterDetect s

/-! ## initial_device (R299) -/

/-- `initial_device` up to its `detect`. -/
def enterInitialDevice (stack : List Frame) (s : State) : State := enterDetect (.initialDetect :: stack) s

/-- After `detect`: false, or `to_normal`. -/
def initialDetectAnswered (ok : Bool) (code : Option Result) (stack : List Frame) (s : State) : State :=
  if ok then enterToNormal (.initialNormal :: stack) s else s.endWith false code stack

/-- After `to_normal`, whose result is returned. -/
def initialNormalAnswered (ok : Bool) (code : Option Result) (stack : List Frame) (s : State) : State :=
  s.endWith ok code stack

/-- initial_device, R299. -/
def execInitialDevice (s : State) : Host.Outcome State Fault Refusal := runOperation enterInitialDevice s

/-! ## Allocation and teardown (R300 to R303) -/

/-- `check_interface` (R301): the nine mandatory functions, and `add_framing` under HostOverride. -/
def checkInterface (h : HostPort) : Bool :=
  let f := h.functions
  f.sendCommand && f.recvResponse && f.sendData && f.recvData && f.isCardInserted && f.setBusWidth &&
    f.setClockFrequency && f.activateCard && f.switchVoltage &&
    (decide (h.framing = .coreCRC7) || f.addFraming)

/-- `allocate_device` (R300). A failed acquisition of the Card storage is a `MemErr` (R321). It makes no host-port call: it is
one internal computation (R16). -/
def allocateDevice (s : State) : State :=
  if s.card.allocated then s.finish false none
  else if s.acquireAnswer = false then s.takeAcquisition.finish false (some .memErr)
  else if checkInterface s.host = false then s.takeAcquisition.finish false none
  else (s.takeAcquisition.setCard (Card.initial true)).finish true (some .well)

/-- allocate_device, R300: the one operation an unallocated Card admits (R98). -/
def execAllocateDevice (s : State) : Host.Outcome State Fault Refusal :=
  if s.control ≠ .idle then .refused .overlappingRequest else .next (allocateDevice s.begin)

/-- `inactivate_device` (R303) up to its first host-port call. -/
def enterInactivateDevice (stack : List Frame) (s : State) : State := s.goto .teardownBus stack

/-- R303: `host.set_bus_width(1)`, then the deselect. -/
def teardownBusCall (stack : List Frame) (s : State) : State :=
  enterSelectCard false (.teardownDeselect :: stack) (hostSetBusWidth .one s)

/-- After the deselect, whatever it answered: CMD0. -/
def teardownDeselectAnswered (stack : List Frame) (s : State) : State := enterGoIdle (.teardownIdle :: stack) s

/-- After CMD0, whatever it answered: Inactive. -/
def teardownIdleAnswered (stack : List Frame) (s : State) : State :=
  (s.setMode .inactive).endWith true (some .well) stack

/-- inactivate_device, R303. -/
def execInactivateDevice (s : State) : Host.Outcome State Fault Refusal := runOperation enterInactivateDevice s

/-- The last two lines of `free_device` (R302). -/
def freed (s : State) : State := (s.setCard { s.card with allocated := false }).finish true (some .well)

/-- `free_device` (R302). -/
def enterFreeDevice (stack : List Frame) (s : State) : State :=
  if s.card.inMode .inactive then freed s else enterInactivateDevice (.freeDevice :: stack) s

/-- free_device, R302. -/
def execFreeDevice (s : State) : Host.Outcome State Fault Refusal := runOperation enterFreeDevice s

end Sys2Proof.Machine
end

