-- ==== Sys2Proof/Machine/Sequencer.lean ====
section
/-! DEFINITION. One step of the sequencer from its control point (10_state.md R50): one host-port call, or one internal
computation between two calls (00_scope.md R16). -/

namespace Sys2Proof.Machine

/-- The innermost of those that wait goes on: the controller it called has returned `r` (R13). -/
def answer (f : Frame) (r : Result) (stack : List Frame) (s : State) : State :=
  match f with
  | .goIdle => goIdleAnswered r stack s
  | .ifCond k => ifCondAnswered k r stack s
  | .appPrefix => appPrefixAnswered r stack s
  | .opCondPrefix a => opCondPrefixAnswered a r stack s
  | .opCond => opCondAnswered r stack s
  | .cid => cidAnswered r stack s
  | .rca => rcaAnswered r stack s
  | .voltage => voltageAnswered r stack s
  | .csd => csdAnswered r stack s
  | .scrPrefix => scrPrefixAnswered r stack s
  | .scr => scrAnswered r stack s
  | .widthPrefix width => widthPrefixAnswered width r stack s
  | .table => tableAnswered r stack s
  | .status => statusAnswered r stack s
  | .stop => stopAnswered r stack s
  | .inactive => inactiveAnswered r stack s
  | .checked => checkedAnswered r stack s
  | .sent => sentAnswered r stack s
  | .checkLength g i => checkLengthAnswered g i r stack s
  | .checkTable g i => checkTableAnswered g i r stack s
  | .switchLength g i => switchLengthAnswered g i r stack s
  | .switchTable g i => switchTableAnswered g i r stack s
  | .polled cur => polledAnswered cur r stack s
  | .commanded cur => commandedAnswered cur r stack s
  | .stopped cur received => attemptEnds cur received r stack s
  | .eraseStart block remaining => eraseStartAnswered block remaining r stack s
  | .eraseEnd block remaining => eraseEndAnswered block remaining r stack s
  | .erased block remaining => erasedAnswered block remaining r stack s
  | .detectIdle => detectIdleAnswered r stack s
  | .detectIfCond => detectIfCondAnswered r stack s
  | .detectOpCond v2 k => detectOpCondAnswered v2 k r stack s
  | .detectVoltage => detectVoltageAnswered r stack s
  | .detectCid => detectCidAnswered r stack s
  | .detectRca => detectRcaAnswered r stack s
  | .normalCsd => normalCsdAnswered r stack s
  | .normalSelect => normalSelectAnswered r stack s
  | .normalScr => normalScrAnswered r stack s
  | .normalSpeed => normalSpeedAnswered r stack s
  | .normalDrive => normalDriveAnswered r stack s
  | .normalPower => normalPowerAnswered r stack s
  | .normalLength => normalLengthAnswered r stack s
  | .normalDeselect failure => normalDeselectAnswered failure stack s
  | .teardownDeselect => teardownDeselectAnswered stack s
  | .teardownIdle => teardownIdleAnswered stack s
  | .initialDetect => initialDetectAnswered (decide (r = .well)) (some r) stack s
  | .initialNormal => initialNormalAnswered (decide (r = .well)) (some r) stack s
  | .freeDevice => freed s

/-- A controller has returned `r`: to the innermost of those that wait, or, requested directly, to the caller. -/
def controllerReturns (r : Result) (stack : List Frame) (s : State) : State :=
  match stack with
  | [] => s.finishCode r
  | f :: rest => answer f r rest s

/-- A public operation has returned: to the operation that waits for it (R299, R302), or to the caller. -/
def operationReturns (ok : Bool) (code : Option Result) (stack : List Frame) (s : State) : State :=
  match stack with
  | .initialDetect :: rest => initialDetectAnswered ok code rest s
  | .initialNormal :: rest => initialNormalAnswered ok code rest s
  | .freeDevice :: _ => freed s
  | _ => s.finish ok code

/-- The step at a position of the pseudocode. -/
def advance (p : Point) (stack : List Frame) (s : State) : State :=
  match p with
  | .addFraming => addFramingCall stack s
  | .sendCommand => sendCommandCall stack s
  | .recvResponse => recvResponseCall stack s
  | .drain => drainCall stack s
  | .voltage => voltageCall stack s
  | .scrData => scrDataCall stack s
  | .tableData => tableDataCall stack s
  | .insertion k => insertionCall k stack s
  | .identificationBus => identificationBusCall stack s
  | .identificationClock => identificationClockCall stack s
  | .activation => activationCall stack s
  | .transferClock => transferClockCall stack s
  | .teardownBus => teardownBusCall stack s
  | .blockData cur => blockDataCall cur stack s
  | .ifCondAttempt k last => ifCondAttempt k last stack s
  | .opCondIteration v2 k => opCondIteration v2 k stack s
  | .statusPoll cur => statusPoll cur stack s
  | .eraseChunk block remaining => eraseChunk block remaining stack s
  | .returned r => controllerReturns r stack s
  | .ended ok code => operationReturns ok code stack s

/-- The operation in progress makes its next step (R50, R65). -/
def resume (s : State) : State :=
  match s.control with
  | .idle => s
  | .running p stack => advance p stack s

end Sys2Proof.Machine
end

