-- ==== Sys2Proof/Machine/Requests.lean ====
section
/-! DEFINITION. The operation-request port (30_encoding.md R97, R98; 20_memory.md R74): reserved op codes, describe mode
(42_command_controllers.md R180, R205) and what the port holds for the next step. -/

namespace Sys2Proof.Machine

/-- A reserved op code (R98): "The model gives it no meaning and performs no host-port call." -/
def execReservedOp (op : BitVec 4) (_s : State) : Host.Outcome State Fault Refusal :=
  .refused (.reservedOpCode op)

/-! ## Describe mode -/

/-- The response type of a command (R87). -/
def responseOf (c : Card) : Instr → ResponseType
  | .cmd0 | .cmd15 => .none
  | .cmd2 | .cmd9 | .cmd10 => .r2
  | .cmd3 => .r6
  | .cmd7 sel => selectResponse (selectArg c sel)
  | .cmd8 => .r7
  | .cmd12 | .cmd38 => .r1b
  | .acmd41 _ => .r3
  | .cmd6 _ _ _ | .cmd11 | .cmd13 | .cmd16 _ | .cmd17 _ | .cmd18 _ | .cmd24 _ | .cmd25 _ | .cmd32 _ | .cmd33 _ | .cmd55
  | .acmd6 _ | .acmd51 => .r1
  | .allocateDevice | .freeDevice | .initialDevice | .inactivateDevice | .detect | .toNormal | .rwBlocks _ _ _ _
  | .formatBlocks _ _ | .reservedOp _ => .none

/-- The data shape of a command (R100, R189, R197 to R201): for the multiple-block commands the block count is the handed
descriptor's, 0 when none is handed over (log 17). -/
def dataShapeOf (c : Card) (d : Option Descriptor) : Instr → Option DataShape
  | .cmd6 _ _ _ => some ⟨1, switchBlockLen, .read⟩
  | .acmd51 => some ⟨1, scrLen, .read⟩
  | .cmd17 _ => some ⟨1, c.blockSize, .read⟩
  | .cmd18 _ => some ⟨(d.map Descriptor.blockCount).getD 0, c.blockSize, .read⟩
  | .cmd24 _ => some ⟨1, c.blockSize, .write⟩
  | .cmd25 _ => some ⟨(d.map Descriptor.blockCount).getD 0, c.blockSize, .write⟩
  | .cmd0 | .cmd2 | .cmd3 | .cmd7 _ | .cmd8 | .cmd9 | .cmd10 | .cmd11 | .cmd12 | .cmd13 | .cmd15 | .cmd16 _ | .cmd32 _
  | .cmd33 _ | .cmd38 | .cmd55 | .acmd6 _ | .acmd41 _ | .allocateDevice | .freeDevice | .initialDevice
  | .inactivateDevice | .detect | .toNormal | .rwBlocks _ _ _ _ | .formatBlocks _ _ | .reservedOp _ => none

/-- Whether a command's operands are in the range its rule gives them: CMD6's group and index (R199), ACMD6's width (R211). -/
def operandsInRange : Instr → Bool
  | .cmd6 _ g i => decide (1 ≤ g) && decide (g ≤ 6) && decide (i ≤ 15)
  | .acmd6 w => decide (w = 1) || decide (w = 4)
  | .cmd0 | .cmd2 | .cmd3 | .cmd7 _ | .cmd8 | .cmd9 | .cmd10 | .cmd11 | .cmd12 | .cmd13 | .cmd15 | .cmd16 _ | .cmd17 _
  | .cmd18 _ | .cmd24 _ | .cmd25 _ | .cmd32 _ | .cmd33 _ | .cmd38 | .cmd55 | .acmd41 _ | .acmd51 | .allocateDevice
  | .freeDevice | .initialDevice | .inactivateDevice | .detect | .toNormal | .rwBlocks _ _ _ _ | .formatBlocks _ _
  | .reservedOp _ => true

/-- Describe mode (R180, R205): the row of R87 with its argument computed from the operands and the current RCA. None for
operands out of their range and for operations. An ACMD's description is its own frame's (R206). -/
def describe (c : Card) (d : Option Descriptor) (i : Instr) : Option Description :=
  if operandsInRange i = false then none
  else
    match commandForm c.rca i with
    | some (index, arg) => some ⟨index, arg, responseOf c i, dataShapeOf c d i⟩
    | none => none

/-- A describe-mode request for a command: no host-port call, no Card field written; the tuple goes to the caller (R180). On an
unallocated Card it returns false with `NullPtr` like every other request (R351; log 4). What has no description is refused
before the Card is looked at: operations and reserved op codes never come here (`fetch`). -/
def execDescribe (i : Instr) (s : State) : Host.Outcome State Fault Refusal :=
  match describe s.card s.callerDesc i with
  | none => .refused .noDescription
  | some d =>
    if s.card.allocated = false then .next (s.begin.finish false (some .nullPtr))
    else .next { s.begin with callerDesc := none, outcome := some ⟨true, none, some d⟩ }

/-- Whether R180's two call modes are there for an instruction: it is a command's controller. A public operation and a reserved
op code have one meaning (R98), whatever the mode of the request. -/
def hasCallModes : Instr → Bool
  | .cmd0 | .cmd2 | .cmd3 | .cmd6 _ _ _ | .cmd7 _ | .cmd8 | .cmd9 | .cmd10 | .cmd11 | .cmd12 | .cmd13 | .cmd15 | .cmd16 _
  | .cmd17 _ | .cmd18 _ | .cmd24 _ | .cmd25 _ | .cmd32 _ | .cmd33 _ | .cmd38 | .cmd55 | .acmd6 _ | .acmd41 _
  | .acmd51 => true
  | .allocateDevice | .freeDevice | .initialDevice | .inactivateDevice | .detect | .toNormal | .rwBlocks _ _ _ _
  | .formatBlocks _ _ | .reservedOp _ => false

/-! ## What the port holds -/

/-- The request leaves the port; the descriptor handed over with it stays for the controller, as the caller made it. That it
keeps R39 (exactly one buffer, ReadEnable with a receive buffer, capacity = size * count, no AutoCmd23) is not checked, because
R39 binds the rules that build a descriptor and names no check: DESIGN CHOICE, log 12. -/
def State.takeRequest (s : State) (r : Request) : State := { s with request := none, callerDesc := r.desc }

/-- What the next step does. -/
inductive Fetched where
  /-- Idle, no request: the block waits at the port (R351). -/
  | nothing
  /-- An operation is in progress and no request is presented. -/
  | inProgress
  /-- An operation is in progress and another is requested (R74). -/
  | overlapping
  /-- The word at the port is no request. -/
  | undecodable (why : DecodeError)
  /-- A command in execute mode, an operation or a reserved op code, with the state it runs in. -/
  | execute (i : Instr) (s : State)
  /-- A command in describe mode, with the state it runs in. -/
  | describe (i : Instr) (s : State)

/-- The fetch: what stands at the request port, read by the decoder. The mode of a request counts for the commands only (R180,
R98; log 17). -/
def fetch (s : State) : Fetched :=
  match s.request with
  | none => if s.control = .idle then .nothing else .inProgress
  | some r =>
    if s.control ≠ .idle then .overlapping
    else
      match decode r.word with
      | .error e => .undecodable e
      | .ok i => if r.hostSupplied || !hasCallModes i then .execute i (s.takeRequest r) else .describe i (s.takeRequest r)

/-- A request word placed at the port of an idle block, in execute mode and with no descriptor. -/
def State.present (s : State) (w : RequestWord) : State :=
  { s with control := .idle, request := some ⟨w, true, none⟩ }

end Sys2Proof.Machine
end

