-- ==== Sys2Proof/Machine/Dispatch.lean ====
section
/-! DEFINITION. The dispatch: one arm per instruction, one direct call of its meaning each. -/

namespace Sys2Proof.Machine

/-- The meaning of an instruction. -/
def exec (i : Instr) (s : State) : Host.Outcome State Fault Refusal :=
  match i with
  | .cmd0 => Sys2Proof.Machine.execCmd0 s
  | .cmd2 => Sys2Proof.Machine.execCmd2 s
  | .cmd3 => Sys2Proof.Machine.execCmd3 s
  | .cmd6 mode group index => Sys2Proof.Machine.execCmd6 mode group index s
  | .cmd7 sel => Sys2Proof.Machine.execCmd7 sel s
  | .cmd8 => Sys2Proof.Machine.execCmd8 s
  | .cmd9 => Sys2Proof.Machine.execCmd9 s
  | .cmd10 => Sys2Proof.Machine.execCmd10 s
  | .cmd11 => Sys2Proof.Machine.execCmd11 s
  | .cmd12 => Sys2Proof.Machine.execCmd12 s
  | .cmd13 => Sys2Proof.Machine.execCmd13 s
  | .cmd15 => Sys2Proof.Machine.execCmd15 s
  | .cmd16 len => Sys2Proof.Machine.execCmd16 len s
  | .cmd17 addr => Sys2Proof.Machine.execCmd17 addr s
  | .cmd18 addr => Sys2Proof.Machine.execCmd18 addr s
  | .cmd24 addr => Sys2Proof.Machine.execCmd24 addr s
  | .cmd25 addr => Sys2Proof.Machine.execCmd25 addr s
  | .cmd32 addr => Sys2Proof.Machine.execCmd32 addr s
  | .cmd33 addr => Sys2Proof.Machine.execCmd33 addr s
  | .cmd38 => Sys2Proof.Machine.execCmd38 s
  | .cmd55 => Sys2Proof.Machine.execCmd55 s
  | .acmd6 width => Sys2Proof.Machine.execAcmd6 width s
  | .acmd41 arg => Sys2Proof.Machine.execAcmd41 arg s
  | .acmd51 => Sys2Proof.Machine.execAcmd51 s
  | .allocateDevice => Sys2Proof.Machine.execAllocateDevice s
  | .freeDevice => Sys2Proof.Machine.execFreeDevice s
  | .initialDevice => Sys2Proof.Machine.execInitialDevice s
  | .inactivateDevice => Sys2Proof.Machine.execInactivateDevice s
  | .detect => Sys2Proof.Machine.execDetect s
  | .toNormal => Sys2Proof.Machine.execToNormal s
  | .rwBlocks buffer start count dir => Sys2Proof.Machine.execRwBlocks buffer start count dir s
  | .formatBlocks start count => Sys2Proof.Machine.execFormatBlocks start count s
  | .reservedOp op => Sys2Proof.Machine.execReservedOp op s

end Sys2Proof.Machine
end

