-- ==== Sys2Proof/Machine/Step.lean ====
section
/-! DEFINITION. One step of the block: take the request at the port and run it, go on with the operation in progress, or
wait at the port (70_reset_and_hazards.md R351). -/

namespace Sys2Proof.Machine

/-- One step. A request that arrives while an operation is in progress is refused (20_memory.md R74). -/
def step (s : State) : Host.Outcome State Fault Refusal :=
  match fetch s with
  | .nothing => .next s
  | .inProgress => .next (resume s)
  | .overlapping => .refused .overlappingRequest
  | .undecodable why => .refused (.notARequest why)
  | .execute i t => exec i t
  | .describe i t => execDescribe i t

/-- `s` with the table word `w` of `nbits` bits presented at the request port of an idle block (log 21). -/
def State.withFetchWord (s : State) (nbits w : Nat) : State := s.present (requestWordOf nbits w)

end Sys2Proof.Machine
end

