-- ==== Sys2Proof/Safety.lean ====
section
/-! DEFINITION. The terms the statements use: when a request is admitted, what a finished request leaves as it was, what the
environment answers to the next exchange, the frames a request has sent, and the invariant of the block. -/

namespace Sys2Proof.Machine

/-! ## The frames sent -/

/-- The frame of a trace entry, if it is a `send_command`. -/
def HostEvent.wire? : HostEvent → Option (BitVec 48)
  | .sendCommand c _ => some c.wire
  | _ => none

/-- The frames of a trace, first one first (R358). -/
def wireTraceOf (trace : List HostEvent) : List (BitVec 48) := (trace.reverse).filterMap HostEvent.wire?

/-- The frames of the current or last request, first one first. -/
def wireTrace (s : State) : List (BitVec 48) := wireTraceOf s.trace

/-- How many frames with this index the request has sent. -/
def sentCount (index : BitVec 6) (s : State) : Nat :=
  ((wireTrace s).filter (fun f => decide ((f.extractLsb 45 40 : BitVec 6) = index))).length

/-! ## Requests and runs -/

/-- The block is idle with a Card allocated and nothing at the request port: it admits every request (R98, R351). -/
structure Ready (s : State) : Prop where
  idle : s.control = .idle
  allocated : s.card.allocated = true
  request : s.request = none

/-- `t` is reached from `s` by steps of the block, each answering a next state. With no request presented these are the steps of
the operation in progress. -/
inductive Steps : State → State → Prop where
  | here (s : State) : Steps s s
  | step (s t u : State) (h : Sys2Proof.Machine.step s = .next t) (k : Steps t u) : Steps s u

/-- `u` is a state of the run of instruction `i` requested in `s`: the next state that `exec` answers, or one reached from it. -/
def RunOf (i : Instr) (s u : State) : Prop := ∃ t, exec i s = .next t ∧ Steps t u

/-- No byte of system memory has changed. -/
def MemorySame (s t : State) : Prop := ∀ a : Nat, t.mem.read a = s.mem.read a

/-- The request ended with this Boolean and code (R306, R358). -/
def Ended (t : State) (ok : Bool) (code : Option Result) : Prop := t.outcome = some ⟨ok, code, none⟩

/-- The request that ran from `s` ended in `t`: the block is idle, no local is left (R354), the Card is `c`, the Boolean and
code are these, the host, the parameters and the request port are as before, and under the core's framer these frames went
out, first one first, after those of `s`. Of `s`, only the environment and system memory are not spoken of. -/
structure Finishes (s t : State) (c : Card) (ok : Bool) (code : Option Result) (frames : List (BitVec 48)) : Prop where
  host : t.host = s.host
  params : t.params = s.params
  request : t.request = s.request
  control : t.control = .idle
  cmd : t.cmd = CmdReg.blank
  payload : t.payload = none
  callerDesc : t.callerDesc = none
  card : t.card = c
  ended : Ended t ok code
  frames : s.host.framing = .coreCRC7 → wireTraceOf t.trace = wireTraceOf s.trace ++ frames

/-- The request that runs from `s` is in progress in `t`, at position `p` with `stack` waiting: the Card is `c`, the payload
buffer, the caller's descriptor, the outcome, the host, the parameters and the request port are as before, and under the core's
framer these frames went out after those of `s`. Of `s`, only the environment, the command register and system memory are not
spoken of. -/
structure Stands (s t : State) (p : Point) (stack : List Frame) (c : Card) (frames : List (BitVec 48)) : Prop where
  host : t.host = s.host
  params : t.params = s.params
  request : t.request = s.request
  control : t.control = .running p stack
  payload : t.payload = s.payload
  callerDesc : t.callerDesc = s.callerDesc
  card : t.card = c
  outcome : t.outcome = s.outcome
  frames : s.host.framing = .coreCRC7 → wireTraceOf t.trace = wireTraceOf s.trace ++ frames

/-- `o` answers a next state, and the block's steps lead from it to the end of the request that ran from `s`, no byte of memory
changed. -/
def Done (o : Host.Outcome State Fault Refusal) (s : State) (c : Card) (ok : Bool) (code : Option Result)
    (frames : List (BitVec 48)) : Prop :=
  ∃ t, o = .next t ∧ ∃ u, Steps t u ∧ Finishes s u c ok code frames ∧ MemorySame s u

/-- `o` answers a next state, and the block's steps lead from it to position `p` of the request that runs from `s`, no byte of
memory changed. -/
def Reaches (o : Host.Outcome State Fault Refusal) (s : State) (p : Point) (stack : List Frame) (c : Card)
    (frames : List (BitVec 48)) : Prop :=
  ∃ t, o = .next t ∧ ∃ u, Steps t u ∧ Stands s u p stack c frames ∧ MemorySame s u

/-- The first host-port call of an exchange (R14, R164). -/
def exchangeCall (s : State) : Point :=
  match s.host.framing with
  | .coreCRC7 => .sendCommand
  | .hostOverride => .addFraming

/-- `o` answers a next state, and the block's steps lead from it to the beginning of the exchange of a command with this index,
argument and response type, with `stack` waiting for it: the first call of the exchange is next, no byte of memory has changed,
and under the core's framer the frame to be sent is framed. `data` is the descriptor the command carries. -/
def Starts (o : Host.Outcome State Fault Refusal) (s : State) (index : BitVec 6) (arg : Word) (type : ResponseType)
    (data : Option Descriptor) (stack : List Frame) (c : Card) (frames : List (BitVec 48)) : Prop :=
  ∃ t, o = .next t ∧ ∃ u, Steps t u ∧ Stands s u (exchangeCall s) stack c frames ∧ MemorySame s u ∧
    (u.cmd.index.extractLsb 5 0 : BitVec 6) = index ∧ u.cmd.argument = arg ∧ u.cmd.responseType = type ∧ u.cmd.data = data ∧
    (s.host.framing = .coreCRC7 → u.cmd.wire = frameOf index arg)

/-- The instruction completes: `exec` answers a next state, and the block's steps lead from it to the end of the request, with
this Card, Boolean and code, no byte of memory changed, and under the core's framer exactly these frames sent (`State.begin`
empties the trace). -/
def Completes (i : Instr) (s : State) (c : Card) (ok : Bool) (code : Option Result) (frames : List (BitVec 48)) : Prop :=
  Done (exec i s) s.begin c ok code frames

/-- A controller completes with result `r`. -/
def CompletesWith (i : Instr) (s : State) (c : Card) (r : Result) (frames : List (BitVec 48)) : Prop :=
  Completes i s c (decide (r = .well)) (some r) frames

/-- The instruction completes with no host-port call at all: the trace of the request is empty (R358). -/
def CompletesSilently (i : Instr) (s : State) (c : Card) (ok : Bool) (code : Option Result) : Prop :=
  ∃ t, exec i s = .next t ∧ ∃ u, Steps t u ∧ Finishes s.begin u c ok code [] ∧ MemorySame s u ∧ u.trace = []

/-- The operation in progress stands at position `p` with `stack` waiting, and no request is presented. -/
structure At (s : State) (p : Point) (stack : List Frame) : Prop where
  control : s.control = .running p stack
  request : s.request = none

/-! ## What the environment answers next -/

/-- The state in which `send_command` is answered: under HostOverride `add_framing` has been answered before (R164). -/
def afterFraming (s : State) : State :=
  match s.host.framing with
  | .coreCRC7 => s
  | .hostOverride => s.takeFraming

/-- The answer the next exchange's `send_command` gets. -/
def nextSend (s : State) : HostResult := (afterFraming s).sendCommandAnswer

/-- The words the next exchange's `recv_response` gets. -/
def nextResponse (s : State) : ResponseWords := (afterFraming s).takeSendCommand.responseAnswer

/-- The environment after an exchange that reads a response (`reads`) or none. -/
def afterExchange (reads : Bool) (s : State) : State :=
  if reads then (afterFraming s).takeSendCommand.takeResponse else (afterFraming s).takeSendCommand

/-! ## What an exchange comes to (R14 with the check of its command) -/

/-- A command with no response: the host's answer. -/
def sentResult (s : State) : Result := hostCode (nextSend s)

/-- A command whose R1 is checked (R185). -/
def r1Result (s : State) : Result :=
  match nextSend s with
  | .error e => errorCode e
  | .well => if (nextResponse s).w0 &&& 0xFFF80008#32 = 0#32 then .well else .anyError

/-- CMD55 (R183): the mask first, then APP_CMD, bit 5. -/
def appPrefixResult (s : State) : Result :=
  match r1Result s with
  | .well => if (nextResponse s).w0.getLsbD 5 then .well else .notSupported
  | r => r

/-- CMD13 (R192): the mask first, then READY_FOR_DATA, bit 8, and CURRENT_STATE, bits 12:9. -/
def statusResult (s : State) : Result :=
  match r1Result s with
  | .well =>
    if (nextResponse s).w0.getLsbD 8 = false ∨ (nextResponse s).w0.extractLsb 12 9 = 7#4 then .notReady else .well
  | r => r

/-- CMD12 (R193): every failure is `TransStopFail`. -/
def stopResult (s : State) : Result := if r1Result s = .well then .well else .transStopFail

/-- One attempt of CMD8 (R182): the echoed check pattern, bits 7:0. -/
def ifCondResult (s : State) : Result :=
  match nextSend s with
  | .error e => errorCode e
  | .well => if (nextResponse s).w0.extractLsb 7 0 = 0xAA#8 then .well else .checkErr

/-- One phase of the negotiation (R240) succeeds from environment `s`: CMD16, the acquisition, CMD6 and its data phase. `p` is
the payload received and `e` the environment after it. -/
structure SwitchPhase (s : State) (p : List Byte) (e : State) : Prop where
  length : r1Result s = .well
  acquired : (afterExchange true s).acquireAnswer = true
  command : r1Result (afterExchange true s).takeAcquisition = .well
  data : (afterExchange true (afterExchange true s).takeAcquisition).recvDataAnswer = .well
  payload : p = (afterExchange true (afterExchange true s).takeAcquisition).recvDataBytes 64
  next : e = (afterExchange true (afterExchange true s).takeAcquisition).takeRecvData 64

/-- One phase of the negotiation fails from environment `s` before its payload is decoded, with the result R244 gives the
position: CMD16, the acquisition, CMD6 or its data phase. The Boolean says whether CMD6 was sent. -/
inductive SwitchPhaseFails (s : State) : Result → Bool → Prop where
  | length (h : r1Result s ≠ .well) : SwitchPhaseFails s (r1Result s) false
  | acquired (h : r1Result s = .well) (k : (afterExchange true s).acquireAnswer = false) : SwitchPhaseFails s .memErr false
  | command (h : r1Result s = .well) (k : (afterExchange true s).acquireAnswer = true)
      (l : r1Result (afterExchange true s).takeAcquisition ≠ .well) :
      SwitchPhaseFails s (r1Result (afterExchange true s).takeAcquisition) true
  | data (x : HostError) (h : r1Result s = .well) (k : (afterExchange true s).acquireAnswer = true)
      (l : r1Result (afterExchange true s).takeAcquisition = .well)
      (m : (afterExchange true (afterExchange true s).takeAcquisition).recvDataAnswer = .error x) :
      SwitchPhaseFails s (errorCode x) true

/-- The environment's answer to a data phase (R264, R265). -/
def dataAnswer (dir : Direction) (s : State) : HostResult :=
  match dir with
  | .read => s.recvDataAnswer
  | .write => s.sendDataAnswer

/-- The environment after a data phase of `n` bytes. -/
def afterData (dir : Direction) (n : Nat) (s : State) : State :=
  match dir with
  | .read => s.takeRecvData n
  | .write => s.takeSendData

/-- The index of the data command of `n` blocks (R264, R265): CMD17, CMD18, CMD24 or CMD25. -/
def dataIndex (dir : Direction) (n : Nat) : BitVec 6 :=
  match dir with
  | .read => if n = 1 then 17#6 else 18#6
  | .write => if n = 1 then 24#6 else 25#6

/-- The descriptor a directly requested command carries: the payload buffer's for CMD6 and ACMD51 (R199, R189), the caller's, as it
stands (log 12), for the data commands (R197, R198, R200, R201), none for every other. -/
def attachedData (caller : Option Descriptor) : Instr → Option Descriptor
  | .cmd6 _ _ _ => some ⟨64#32, 1#32, 64#64, some .payload, none, 1#3⟩
  | .acmd51 => some ⟨8#32, 1#32, 8#64, some .payload, none, 1#3⟩
  | .cmd17 _ | .cmd18 _ | .cmd24 _ | .cmd25 _ => caller
  | .cmd0 | .cmd2 | .cmd3 | .cmd7 _ | .cmd8 | .cmd9 | .cmd10 | .cmd11 | .cmd12 | .cmd13 | .cmd15 | .cmd16 _ | .cmd32 _
  | .cmd33 _ | .cmd38 | .cmd55 | .acmd6 _ | .acmd41 _ | .allocateDevice | .freeDevice | .initialDevice | .inactivateDevice
  | .detect | .toNormal | .rwBlocks _ _ _ _ | .formatBlocks _ _ | .reservedOp _ => none

/-- R262: the number of blocks of the next transaction: what remains, at most `HOST_MAX_BLOCK_COUNT`. R8 makes that at least 1; a 0
is taken as 1 (log 10). -/
def transactionBlocks (h : HostPort) (remaining : Nat) : Nat := min remaining (max 1 h.maxBlockCount)

/-- R301: the host supplies the nine mandatory functions, and `add_framing` when the framing is the host's. -/
structure InterfaceSupplied (h : HostPort) : Prop where
  sendCommand : h.functions.sendCommand = true
  recvResponse : h.functions.recvResponse = true
  sendData : h.functions.sendData = true
  recvData : h.functions.recvData = true
  isCardInserted : h.functions.isCardInserted = true
  setBusWidth : h.functions.setBusWidth = true
  setClockFrequency : h.functions.setClockFrequency = true
  activateCard : h.functions.activateCard = true
  switchVoltage : h.functions.switchVoltage = true
  addFraming : h.framing = .hostOverride → h.functions.addFraming = true

/-- R267: the host leaves CMD12 to the core and the transaction has more than one block. -/
def stopNeeded (h : HostPort) (n : Nat) : Prop := 1 < n ∧ h.autoCmd12 = false

/-! ## Memory and buffers -/

/-- Address `a` is none of the `n` bytes of the buffer at `p`. -/
def OutsideBuffer (p : Addr) (n : Nat) (a : Nat) : Prop := ∀ i, i < n → a ≠ byteAddress p i

/-! ## What the lifecycle leaves in the Card -/

/-- R303: the Card after `inactivate_device` on environment `s`. -/
def tornDown (s : State) : Card :=
  { s.card with
    mode := ModeName.inactive.bits
    busWidth := .one
    rca := if nextSend (afterExchange false s).takeResponse = .well then 0#16 else s.card.rca }

/-- R290: the modes an instruction may write. -/
def modesWrittenBy : Instr → List ModeName
  | .cmd0 => [.idle]
  | .cmd15 => [.inactive]
  | .inactivateDevice | .freeDevice => [.idle, .inactive]
  | .detect => [.idle, .ready, .identify, .standBy]
  | .toNormal => [.transfer, .standBy]
  | .initialDevice => [.idle, .ready, .identify, .standBy, .transfer]
  | .cmd2 | .cmd3 | .cmd6 _ _ _ | .cmd7 _ | .cmd8 | .cmd9 | .cmd10 | .cmd11 | .cmd12 | .cmd13 | .cmd16 _ | .cmd17 _
  | .cmd18 _ | .cmd24 _ | .cmd25 _ | .cmd32 _ | .cmd33 _ | .cmd38 | .cmd55 | .acmd6 _ | .acmd41 _ | .acmd51
  | .allocateDevice | .rwBlocks _ _ _ _ | .formatBlocks _ _ | .reservedOp _ => []

/-- R290: the mode the line of pseudocode at a control point writes, if it writes one: a line right after a call that has
returned `Well`, or, in a teardown and in the failure path of `to_normal`, after one that has returned. -/
def modeWrittenAt : Control → Option ModeName
  | .running (.returned .well) (.goIdle :: _) => some .idle
  | .running (.returned .well) (.inactive :: _) => some .inactive
  | .running (.returned .well) (.detectOpCond _ _ :: _) => some .ready
  | .running (.returned .well) (.detectCid :: _) => some .identify
  | .running (.returned .well) (.detectRca :: _) => some .standBy
  | .running (.returned .well) (.normalLength :: _) => some .transfer
  | .running (.returned _) (.normalDeselect _ :: _) => some .standBy
  | .running (.returned _) (.teardownIdle :: _) => some .inactive
  | _ => none

/-- The registers of the Card block, those written together as one (R21 to R34). The mode has a table of its own (R290). -/
inductive CardRegister where
  | rca
  | ocr
  | voltage
  | cid
  | csd
  | geometry
  | scr
  | functions
  | busWidth
  | clockClass
  | allocated
  deriving DecidableEq, Repr

/-- The register holds the same in two Cards. -/
def CardRegister.same (r : CardRegister) (c d : Card) : Prop :=
  match r with
  | .rca => d.rca = c.rca
  | .ocr => d.ocr = c.ocr
  | .voltage => d.voltage = c.voltage
  | .cid => d.cid = c.cid ∧ d.cidValid = c.cidValid
  | .csd => d.csd = c.csd ∧ d.csdValid = c.csdValid
  | .geometry => d.blockCount = c.blockCount ∧ d.blockSize = c.blockSize ∧ d.capacity = c.capacity
  | .scr => d.scr = c.scr ∧ d.scrValid = c.scrValid ∧ d.version = c.version
  | .functions => d.fnSupport = c.fnSupport ∧ d.fnCurrent = c.fnCurrent ∧ d.fnValid = c.fnValid
  | .busWidth => d.busWidth = c.busWidth
  | .clockClass => d.clockClass = c.clockClass
  | .allocated => d.allocated = c.allocated

/-- The registers an instruction may write, in the request and in every later step of it. -/
def registersWrittenBy : Instr → List CardRegister
  | .cmd0 | .cmd3 => [.rca]
  | .cmd2 | .cmd10 => [.cid]
  | .cmd6 _ _ _ => [.functions]
  | .cmd9 => [.csd, .geometry]
  | .cmd11 => [.voltage]
  | .acmd41 _ => [.ocr]
  | .acmd51 => [.scr]
  | .inactivateDevice => [.rca, .busWidth]
  | .freeDevice => [.rca, .busWidth, .allocated]
  | .detect => [.rca, .ocr, .voltage, .cid, .busWidth, .clockClass]
  | .toNormal => [.csd, .geometry, .scr, .functions, .clockClass]
  | .initialDevice => [.rca, .ocr, .voltage, .cid, .csd, .geometry, .scr, .functions, .busWidth, .clockClass]
  | .cmd7 _ | .cmd8 | .cmd12 | .cmd13 | .cmd15 | .cmd16 _ | .cmd17 _ | .cmd18 _ | .cmd24 _ | .cmd25 _ | .cmd32 _ | .cmd33 _
  | .cmd38 | .cmd55 | .acmd6 _ | .allocateDevice | .rwBlocks _ _ _ _ | .formatBlocks _ _ | .reservedOp _ => []

/-- The registers the line of pseudocode at a control point writes. -/
def registersWrittenAt : Control → List CardRegister
  | .running (.returned .well) (.goIdle :: _) => [.rca]
  | .running (.returned .well) (.rca :: _) => [.rca]
  | .running (.returned .well) (.opCond :: _) => [.ocr]
  | .running .voltage _ => [.voltage]
  | .running (.returned .well) (.cid :: _) => [.cid]
  | .running (.returned .well) (.csd :: _) => [.csd, .geometry]
  | .running (.returned .well) (.normalLength :: _) => [.geometry]
  | .running .scrData _ => [.scr]
  | .running .tableData _ => [.functions]
  | .running .identificationBus _ => [.busWidth]
  | .running .teardownBus _ => [.busWidth]
  | .running .identificationClock _ => [.clockClass]
  | .running .transferClock _ => [.clockClass]
  | .running (.returned _) (.freeDevice :: _) => [.allocated]
  | .running (.ended _ _) (.freeDevice :: _) => [.allocated]
  | _ => []

/-- The host-port call of a position with the answer the environment gives next, if the position is a call (R11, R333). -/
def callAt (s : State) : Point → Option HostEvent
  | .addFraming => some (.addFraming s.framingAnswer.1 s.framingAnswer.2)
  | .sendCommand => some (.sendCommand s.cmd s.sendCommandAnswer)
  | .recvResponse | .drain => some (.recvResponse s.responseAnswer)
  | .voltage => some (.switchVoltage1V8 s.voltageAnswer)
  | .scrData => some (.recvData (payloadDescriptor 8#32) (s.recvDataBytes 8) s.recvDataAnswer)
  | .tableData => some (.recvData (payloadDescriptor 64#32) (s.recvDataBytes 64) s.recvDataAnswer)
  | .insertion _ => some (.isCardInserted s.insertedAnswer)
  | .identificationBus | .teardownBus => some (.setBusWidth .one)
  | .identificationClock => some (.setClockFrequency .f400K)
  | .transferClock => some (.setClockFrequency .f25M)
  | .activation => some (.activateCard s.params.activateTimeout s.activatedAnswer)
  | .blockData cur =>
    let d := blockDescriptor s cur.dir cur.buffer (transactionBlocks s.host cur.remaining)
    match cur.dir with
    | .read => some (.recvData d (s.recvDataBytes d.capacity.toNat) s.recvDataAnswer)
    | .write =>
      some (.sendData d (if s.sendDataAnswer = .well then s.mem.readBytes cur.buffer d.capacity.toNat else [])
        s.sendDataAnswer)
  | .ifCondAttempt _ _ | .opCondIteration _ _ | .statusPoll _ | .eraseChunk _ _ | .returned _ | .ended _ _ => none

/-- The instructions that are public operations (R3 a). -/
def IsOperation (i : Instr) : Prop :=
  match i with
  | .allocateDevice | .freeDevice | .initialDevice | .inactivateDevice | .detect | .toNormal | .rwBlocks _ _ _ _
  | .formatBlocks _ _ => True
  | _ => False

/-! ## CRC7 -/

/-- A 40-bit message as the five bytes of a command buffer, most significant first (R81). -/
def bufferOf (m : BitVec 40) : List Byte :=
  [m.extractLsb 39 32, m.extractLsb 31 24, m.extractLsb 23 16, m.extractLsb 15 8, m.extractLsb 7 0]

/-! ## The call nesting (R50, R329) -/

/-- The routines of files 42 to 45 and `exchange` (R14). `checked` stands for the controllers whose rest is at most `check_r1`:
SelectCard, SetBlockLength, SetBusWidth, the command phases of the data commands, the erase commands. -/
inductive Routine where
  | exchange
  | goIdle
  | sendIfCond
  | appCmdPrefix
  | sendOpCond
  | readCid
  | issueRca
  | switchVoltage
  | getCsd
  | getScr
  | selectFunction
  | getStatus
  | stopTransmission
  | goInactive
  | checked
  | negotiate
  | rwBlocks
  | formatBlocks
  | detect
  | toNormal
  | initialDevice
  | inactivateDevice
  | freeDevice
  deriving DecidableEq, Repr

/-- The routine that waits in a frame. -/
def Frame.routine : Frame → Routine
  | .goIdle => .goIdle
  | .ifCond _ => .sendIfCond
  | .appPrefix => .appCmdPrefix
  | .opCondPrefix _ | .opCond => .sendOpCond
  | .cid => .readCid
  | .rca => .issueRca
  | .voltage => .switchVoltage
  | .csd => .getCsd
  | .scrPrefix | .scr => .getScr
  | .widthPrefix _ | .checked | .sent => .checked
  | .table => .selectFunction
  | .status => .getStatus
  | .stop => .stopTransmission
  | .inactive => .goInactive
  | .checkLength _ _ | .checkTable _ _ | .switchLength _ _ | .switchTable _ _ => .negotiate
  | .polled _ | .commanded _ | .stopped _ _ => .rwBlocks
  | .eraseStart _ _ | .eraseEnd _ _ | .erased _ _ => .formatBlocks
  | .detectIdle | .detectIfCond | .detectOpCond _ _ | .detectVoltage | .detectCid | .detectRca => .detect
  | .normalCsd | .normalSelect | .normalScr | .normalSpeed | .normalDrive | .normalPower | .normalLength
  | .normalDeselect _ => .toNormal
  | .teardownDeselect | .teardownIdle => .inactivateDevice
  | .initialDetect | .initialNormal => .initialDevice
  | .freeDevice => .freeDevice

/-- The routine whose return a frame waits for. -/
def Frame.calls : Frame → Routine
  | .goIdle | .ifCond _ | .appPrefix | .opCond | .cid | .rca | .voltage | .csd | .scr | .table | .status | .stop | .inactive
  | .checked | .sent => .exchange
  | .opCondPrefix _ | .scrPrefix | .widthPrefix _ => .appCmdPrefix
  | .checkLength _ _ | .switchLength _ _ | .commanded _ | .eraseStart _ _ | .eraseEnd _ _ | .erased _ _ | .normalSelect
  | .normalLength | .normalDeselect _ | .teardownDeselect => .checked
  | .checkTable _ _ | .switchTable _ _ => .selectFunction
  | .polled _ => .getStatus
  | .stopped _ _ => .stopTransmission
  | .detectIdle | .teardownIdle => .goIdle
  | .detectIfCond => .sendIfCond
  | .detectOpCond _ _ => .sendOpCond
  | .detectVoltage => .switchVoltage
  | .detectCid => .readCid
  | .detectRca => .issueRca
  | .normalCsd => .getCsd
  | .normalScr => .getScr
  | .normalSpeed | .normalDrive | .normalPower => .negotiate
  | .initialDetect => .detect
  | .initialNormal => .toNormal
  | .freeDevice => .inactivateDevice

/-- The routine a request for an instruction runs. -/
def routineOf : Instr → Option Routine
  | .cmd0 => some .goIdle
  | .cmd2 | .cmd10 => some .readCid
  | .cmd3 => some .issueRca
  | .cmd6 _ _ _ => some .selectFunction
  | .cmd8 => some .sendIfCond
  | .cmd9 => some .getCsd
  | .cmd11 => some .switchVoltage
  | .cmd12 => some .stopTransmission
  | .cmd13 => some .getStatus
  | .cmd15 => some .goInactive
  | .cmd7 _ | .cmd16 _ | .cmd17 _ | .cmd18 _ | .cmd24 _ | .cmd25 _ | .cmd32 _ | .cmd33 _ | .cmd38 | .acmd6 _ => some .checked
  | .cmd55 => some .appCmdPrefix
  | .acmd41 _ => some .sendOpCond
  | .acmd51 => some .getScr
  | .freeDevice => some .freeDevice
  | .initialDevice => some .initialDevice
  | .inactivateDevice => some .inactivateDevice
  | .detect => some .detect
  | .toNormal => some .toNormal
  | .rwBlocks _ _ _ _ => some .rwBlocks
  | .formatBlocks _ _ => some .formatBlocks
  | .allocateDevice | .reservedOp _ => none

/-- The routines of the public operations (R3 a); `allocate_device` is over in one step. -/
def Routine.isOperation : Routine → Bool
  | .rwBlocks | .formatBlocks | .detect | .toNormal | .initialDevice | .inactivateDevice | .freeDevice => true
  | .exchange | .goIdle | .sendIfCond | .appCmdPrefix | .sendOpCond | .readCid | .issueRca | .switchVoltage | .getCsd | .getScr
  | .selectFunction | .getStatus | .stopTransmission | .goInactive | .checked | .negotiate => false

/-- The routine that executes the line at a position; for a return, the one that the innermost frame waits for, or the one
requested (`bottom`). -/
def Point.routine (bottom : Routine) (stack : List Frame) : Point → Routine
  | .addFraming | .sendCommand | .recvResponse => .exchange
  | .drain => .goIdle
  | .voltage => .switchVoltage
  | .scrData => .getScr
  | .tableData => .selectFunction
  | .insertion _ | .identificationBus | .identificationClock | .activation | .opCondIteration _ _ => .detect
  | .transferClock => .toNormal
  | .teardownBus => .inactivateDevice
  | .blockData _ | .statusPoll _ => .rwBlocks
  | .ifCondAttempt _ _ => .sendIfCond
  | .eraseChunk _ _ => .formatBlocks
  | .returned _ | .ended _ _ => (stack.head?.map Frame.calls).getD bottom

/-- R50: routine `r` runs on `stack`: each frame waits for the routine above it, and the last one is in routine `bottom`. -/
def nested (bottom : Routine) : Routine → List Frame → Prop
  | r, [] => r = bottom
  | r, f :: rest => f.calls = r ∧ nested bottom f.routine rest

/-- R320, R321: what a return carries. Only SendOpCond returns `Retry` and only GetStatus `NotReady`; operations return by
`ended`, controllers by `returned`. -/
def returnsLegally (bottom : Routine) (stack : List Frame) : Point → Prop
  | .returned r =>
    (Point.routine bottom stack (.returned r)).isOperation = false ∧
      (r = .retry → Point.routine bottom stack (.returned r) = .sendOpCond) ∧
      (r = .notReady → Point.routine bottom stack (.returned r) = .getStatus)
  | .ended ok code =>
    (Point.routine bottom stack (.ended ok code)).isOperation = true ∧ code ≠ some .retry ∧ code ≠ some .notReady
  | _ => True

/-- The control point of a run of routine `bottom`. -/
def controlNested (bottom : Routine) : Control → Prop
  | .idle => True
  | .running p stack => nested bottom (p.routine bottom stack) stack ∧ returnsLegally bottom stack p ∧ stack.length ≤ 4

/-! ## The invariant -/

/-- The modes some rule writes, and PowerOn (R30, R290). -/
def modeWritten (m : BitVec 10) : Prop :=
  m = 0#10 ∨ m = ModeName.idle.bits ∨ m = ModeName.ready.bits ∨ m = ModeName.identify.bits ∨ m = ModeName.standBy.bits ∨
    m = ModeName.transfer.bits ∨ m = ModeName.inactive.bits

/-- The blocks from `block` on, `remaining` of them, are on the card, and their addresses fit the argument (R71, R260). -/
def blocksInRange (c : Card) (block remaining : Nat) : Prop :=
  0 < remaining ∧ block + remaining ≤ c.blockCount.toNat ∧
    (c.highCapacity = false → (block + remaining - 1) * c.blockSize.toNat < 2 ^ 32)

/-- The transfer cursor and the counters of a transaction are within their bounds (R44, R260). -/
def cursorInBounds (s : State) (cur : Cursor) : Prop :=
  blocksInRange s.card cur.block cur.remaining ∧ cur.retry ≤ s.params.dataRetry ∧
    (cur.polls = 0 ∨ limitReached s.params.statusPollLimit cur.polls = false)

/-- A failure that is no sentinel of the core's loops. -/
def isFailure (r : Result) : Prop := r ≠ .well ∧ r ≠ .retry ∧ r ≠ .notReady

/-- The locals alive at a position are within their bounds (R44). At the head of a counted loop the counter may be one past the
bound: the loop is over. Only under HostOverride does an exchange stand at `add_framing` (R164). -/
def pointInBounds (s : State) : Point → Prop
  | .insertion k => k = 0 ∨ limitReached s.params.insertPollLimit k = false
  | .ifCondAttempt k last => 1 ≤ k ∧ k ≤ s.params.cmd8MaxAttempts + 1 ∧ isFailure last
  | .opCondIteration _ k => 1 ≤ k ∧ k ≤ s.params.acmd41LoopBudget + 1
  | .statusPoll cur | .blockData cur => cursorInBounds s cur
  | .eraseChunk block remaining => blocksInRange s.card block remaining
  | .voltage => s.host.supports1V8 = true
  | .addFraming => s.host.framing = .hostOverride
  | _ => True

/-- The locals of a routine that waits are within their bounds (R44). -/
def frameInBounds (s : State) : Frame → Prop
  | .ifCond k => 1 ≤ k ∧ k ≤ s.params.cmd8MaxAttempts
  | .detectOpCond _ k => 1 ≤ k ∧ k ≤ s.params.acmd41LoopBudget
  | .polled cur | .commanded cur | .stopped cur _ => cursorInBounds s cur
  | .eraseStart block remaining | .eraseEnd block remaining | .erased block remaining => blocksInRange s.card block remaining
  | .normalDeselect r => isFailure r
  | .voltage => s.host.supports1V8 = true
  | _ => True

/-- The locals of an operation in progress are within their bounds (R44). -/
def controlInBounds (s : State) : Prop :=
  match s.control with
  | .idle => True
  | .running p stack => pointInBounds s p ∧ ∀ f ∈ stack, frameInBounds s f

/-- A frame between `acquire` and `release` (R207). -/
def Frame.holdsPayload : Frame → Bool
  | .scrPrefix | .scr | .table => true
  | _ => false

/-- A control point between `acquire` and `release` (R189, R199, R207). -/
def holdsPayload : Control → Bool
  | .idle => false
  | .running .scrData _ | .running .tableData _ => true
  | .running _ stack => stack.any Frame.holdsPayload

/-- The invariant of the Card register block. -/
structure CardInv (h : HostPort) (c : Card) : Prop where
  /-- R30: at most one mode bit, and never one of bits 5 to 8. -/
  mode : modeWritten c.mode
  /-- R28: `capacity = block_count * block_size`. -/
  capacity : c.capacity.toNat = c.blockCount.toNat * c.blockSize.toNat
  /-- R130, R188: only the two known CSD structures are ever stored. -/
  csd : c.csdValid = true → csdStructure c.csd = 0#2 ∨ csdStructure c.csd = 1#2
  /-- R23, R138: the version is the SCR's. -/
  version : c.scrValid = true → c.version = versionOf c.scr
  /-- R22, R184: a stored OCR has its power-up bit set. -/
  ocr : c.ocr = 0#32 ∨ ocrPoweredUp c.ocr = true
  /-- R194: 1.8 V only with a host that supports it. -/
  voltage : c.voltage = 1#1 → h.supports1V8 = true
  /-- R370: the bus stays 1-bit. -/
  busWidth : c.busWidth = .one

/-- The invariant of the block. -/
structure Inv (s : State) : Prop where
  card : CardInv s.host s.card
  /-- The memory keeps its canonical form. -/
  mem : s.mem.wf = true
  /-- R40, R207: the payload buffer is there only between `acquire` and `release`. -/
  payload : s.payload ≠ none → holdsPayload s.control = true
  /-- R354: no command register and no descriptor between operations. -/
  idle : s.control = .idle → s.cmd = CmdReg.blank ∧ s.callerDesc = none
  /-- R98: an operation in progress has a Card. -/
  allocated : s.control ≠ .idle → s.card.allocated = true
  /-- R50, R329: the stack is that of a request's calls, at most four deep. -/
  nesting : ∃ i r, routineOf i = some r ∧ controlNested r s.control
  /-- R44. -/
  bounds : controlInBounds s
  /-- R80, R95, R165: under the core's framer every frame on the wire is one a receiver accepts, -/
  frames : s.host.framing = .coreCRC7 → ∀ f ∈ wireTrace s, frameValid f = true
  /-- and so is the frame about to be sent. -/
  framed : s.host.framing = .coreCRC7 → ∀ stack, s.control = .running .sendCommand stack → frameValid s.cmd.wire = true

end Sys2Proof.Machine
end

