-- ==== Sys2Proof/Certificates/Slice0/Obligations.lean ====
section
/-! DEFINITION. The statements about the model, each a proposition. Their premises on the environment are premises on what it
answers next (`nextSend`, `nextResponse`, `afterExchange`, ... of Safety.lean), as 60_exceptions.md R332 asks. -/

open Sys2Proof Sys2Proof.Machine

/-! ## The encodings -/

/-- R80, R87, R88, R90, R91, R93, R97: the decoder reads every well-formed instruction back from its request word, every operand at
every value that has an encoding. Two words spell two instructions each: a CMD7 select at RCA 0 has the deselect's word (R190),
and CMD6 with index 15 has the same word in every group, which is read as group 1 (log 18: such an index says "no change" in its
group as in the others). Index 6 is told apart by its argument, where R89 uses the CMD55 before it (log 3). -/
def Obligations.DecodingAnEncodingGivesTheInstruction : Prop :=
  (∀ (rca : BitVec 16) (i : Instr), WellFormed i → (i = .cmd7 true → rca ≠ 0#16) → decode (encode rca i) = .ok i) ∧
    decode (encode 0#16 (.cmd7 true)) = .ok (.cmd7 false) ∧
    ∀ (rca : BitVec 16) (m : SwitchMode) (g : Nat), 1 ≤ g → g ≤ 6 →
      decode (encode rca (.cmd6 m g 15)) = .ok (.cmd6 m 1 15)

/-- Whatever the decoder accepts is well formed, and a frame it accepts has the index and argument that the command map of R87 gives
the instruction, for some RCA. R87 and R95 say which commands the block produces and with which bits; that a command is requested
by a word of that form is the model's choice (logs 2 and 3), and so is that a request frame for ACMD41 with a bit R91 marks 0 set
is not accepted (log 27). -/
def Obligations.DecodedFramesAreCommandForms : Prop :=
  (∀ (w : RequestWord) (i : Instr), decode w = .ok i → WellFormed i) ∧
    ∀ (f : BitVec 48) (i : Instr), decode (.frame f) = .ok i →
      ∃ rca : BitVec 16, commandForm rca i = some (f.extractLsb 45 40, f.extractLsb 39 8)

/-- Eight frames of 95_test_vectors.md section 2.2 and operation records of R97, written out, decode to the instructions they stand
for; a record with op 9 is a reserved one, a frame with no command's index is refused, and so is an
ACMD41 frame with argument bit 31 set, which R91 marks 0 (log 27). -/
def Obligations.WrittenOutWordsDecode : Prop :=
  decode (.frame 0x400000000095#48) = .ok .cmd0 ∧
  decode (.frame 0x4600FFFFF11F#48) = .ok (.cmd6 .check 1 1) ∧
  decode (.frame 0x4600000002CB#48) = .ok (.acmd6 4) ∧
  decode (.frame 0x471234000059#48) = .ok (.cmd7 true) ∧
  decode (.frame 0x500000020015#48) = .ok (.cmd16 512#32) ∧
  decode (.frame 0x6940FF800017#48) = .ok (.acmd41 0x40FF8000#32) ∧
  decode (.frame 0x6600000000A5#48) = .ok .cmd38 ∧
  decode (.frame 0x7300000000C7#48) = .ok .acmd51 ∧
  decodeTableWord 4 1 = some .allocateDevice ∧
  decodeTableWord 4 5 = some .detect ∧
  decodeTableWord 4 9 = some (.reservedOp 9#4) ∧
  decode (.frame 0x7F0000000001#48) = .error (.unknownIndex 63#6) ∧
  decode (.frame 0x69C0FF800001#48) = .error (.badArgument 41#6)

/-- R80, R83, R85: the fields of a command frame and of the response frames: a short response echoes the index and carries the CRC7
of its first 40 bits, but for R3, whose two fields are all ones; its payload is bits 39:8; an R2 carries bits 127:1 of a register. -/
def Obligations.FrameFieldsStandInTheirPlaces : Prop :=
  (∀ (index : BitVec 6) (arg : Word),
    (frameOf index arg).getLsbD 47 = false ∧ (frameOf index arg).getLsbD 46 = true ∧
    (frameOf index arg).extractLsb 45 40 = index ∧ (frameOf index arg).extractLsb 39 8 = arg ∧
    (frameOf index arg).extractLsb 7 1 = crc7 (bufferOf ((frameOf index arg).extractLsb 47 8)) ∧
    (frameOf index arg).getLsbD 0 = true) ∧
  (∀ (type : ResponseType) (index : BitVec 6) (payload : Word),
    ((type = .none ∨ type = .r2) → shortResponseFrame type index payload = none) ∧
    (type ≠ .none → type ≠ .r2 → ∃ f, shortResponseFrame type index payload = some f ∧
      f.getLsbD 47 = false ∧ f.getLsbD 46 = false ∧ f.getLsbD 0 = true ∧
      f.extractLsb 39 8 = payload ∧ shortResponsePayload f = payload ∧
      (type = .r3 → f.extractLsb 45 40 = 0b111111#6 ∧ f.extractLsb 7 1 = 0b1111111#7) ∧
      (type ≠ .r3 → f.extractLsb 45 40 = index ∧ f.extractLsb 7 1 = crc7 (bufferOf (f.extractLsb 47 8))))) ∧
  ∀ reg : Reg128,
    (longResponseFrame reg).getLsbD 135 = false ∧ (longResponseFrame reg).getLsbD 134 = false ∧
    (longResponseFrame reg).extractLsb 133 128 = 0b111111#6 ∧
    (longResponseFrame reg).extractLsb 127 1 = reg.extractLsb 127 1 ∧ (longResponseFrame reg).getLsbD 0 = true

/-- R165: a receiver accepts the 40 message bits followed by the framer's CRC byte (R163), for every 5-byte buffer. -/
def Obligations.ReceiversAcceptWhatTheFramerProduces : Prop :=
  ∀ m : BitVec 40, frameValid (m ++ crcByte (crc7 (bufferOf m))) = true

/-- R166. -/
def Obligations.FlippingAnyMessageBitChangesTheCrc : Prop :=
  ∀ (m : BitVec 40) (k : Nat), k < 40 → crc7 (bufferOf (m ^^^ (1#40 <<< k))) ≠ crc7 (bufferOf m)

/-! ## The codec -/

/-- R121: the mask is bits 31 to 19 and bit 3. -/
def Obligations.AllErrorTestReadsTheFourteenMaskBits : Prop :=
  ∀ w : Word, r1Ok w = true ↔ (∀ k, (19 ≤ k ∧ k ≤ 31) ∨ k = 3 → w.getLsbD k = false)

/-- R133, R134: the geometry of the two CSD layouts with its bounds; nothing wraps. -/
def Obligations.GeometryOfBothCsdLayouts : Prop :=
  ∀ reg : Reg128,
    ((geometryV1 (csdV1 reg)).blockCount.toNat =
        ((reg.extractLsb 73 62).toNat + 1) * 2 ^ ((reg.extractLsb 49 47).toNat + 2) ∧
      (geometryV1 (csdV1 reg)).blockSize.toNat = 2 ^ (reg.extractLsb 83 80).toNat ∧
      (geometryV1 (csdV1 reg)).capacity.toNat =
        (geometryV1 (csdV1 reg)).blockCount.toNat * (geometryV1 (csdV1 reg)).blockSize.toNat ∧
      (geometryV1 (csdV1 reg)).blockCount.toNat ≤ 2 ^ 21 ∧ (geometryV1 (csdV1 reg)).blockSize.toNat ≤ 2 ^ 15 ∧
      (geometryV1 (csdV1 reg)).capacity.toNat ≤ 2 ^ 36) ∧
    (geometryV2 (csdV2 reg)).blockCount.toNat = ((reg.extractLsb 69 48).toNat + 1) * 1024 ∧
    (geometryV2 (csdV2 reg)).blockSize = 512#32 ∧
    (geometryV2 (csdV2 reg)).capacity.toNat = (geometryV2 (csdV2 reg)).blockCount.toNat * 512 ∧
    (geometryV2 (csdV2 reg)).blockCount.toNat ≤ 2 ^ 32 ∧ (geometryV2 (csdV2 reg)).capacity.toNat ≤ 2 ^ 41

/-- R136, R138, R139: the SCR is its eight bytes, first byte most significant; the version table; and the places of the six support bitmaps and current functions in a CMD6 payload. -/
def Obligations.PayloadDecodesFollowTheirTables : Prop :=
  (∀ scr : BitVec 64,
    (scr.extractLsb 59 56 = 0#4 → versionOf scr = 0#2) ∧ (scr.extractLsb 59 56 = 1#4 → versionOf scr = 1#2) ∧
    (scr.extractLsb 59 56 = 2#4 → scr.getLsbD 47 = false → versionOf scr = 2#2) ∧
    (scr.extractLsb 59 56 = 2#4 → scr.getLsbD 47 = true → versionOf scr = 3#2) ∧
    (3 ≤ (scr.extractLsb 59 56).toNat → versionOf scr = 3#2)) ∧
  (∀ p : List Byte,
    assembleScr p = p.getD 0 0#8 ++ (p.getD 1 0#8 ++ (p.getD 2 0#8 ++ (p.getD 3 0#8 ++
      (p.getD 4 0#8 ++ (p.getD 5 0#8 ++ (p.getD 6 0#8 ++ p.getD 7 0#8))))))) ∧
  ∀ (c : Card) (p : List Byte),
    (c.withSwitchStatus p).fnSupport =
      ⟨p.getD 12 0#8 ++ p.getD 13 0#8, p.getD 10 0#8 ++ p.getD 11 0#8, p.getD 8 0#8 ++ p.getD 9 0#8,
        p.getD 6 0#8 ++ p.getD 7 0#8, p.getD 4 0#8 ++ p.getD 5 0#8, p.getD 2 0#8 ++ p.getD 3 0#8⟩ ∧
    (c.withSwitchStatus p).fnCurrent =
      ⟨(p.getD 16 0#8).extractLsb 3 0, (p.getD 16 0#8).extractLsb 7 4, (p.getD 15 0#8).extractLsb 3 0,
        (p.getD 15 0#8).extractLsb 7 4, (p.getD 14 0#8).extractLsb 3 0, (p.getD 14 0#8).extractLsb 7 4⟩ ∧
    (c.withSwitchStatus p).fnValid = true

/-- R296, R28: the block-size fix-up keeps the capacity equation, changes nothing else, and a count of 1024-byte blocks doubles,
a count of 2048-byte blocks quadruples. -/
def Obligations.BlockSizeFixUpKeepsTheCapacityEquation : Prop :=
  ∀ c : Card, c.capacity.toNat = c.blockCount.toNat * c.blockSize.toNat →
    c.fixBlockSize.blockSize = 512#32 ∧
    c.fixBlockSize.capacity.toNat = c.fixBlockSize.blockCount.toNat * 512 ∧
    c.fixBlockSize.blockCount.toNat = c.capacity.toNat / 512 ∧
    (c.blockSize = 1024#32 → c.fixBlockSize.blockCount.toNat = 2 * c.blockCount.toNat) ∧
    (c.blockSize = 2048#32 → c.fixBlockSize.blockCount.toNat = 4 * c.blockCount.toNat) ∧
    { c.fixBlockSize with blockCount := c.blockCount, blockSize := c.blockSize, capacity := c.capacity } = c

/-! ## The whole machine -/

/-- Every step keeps the invariant of the block: the modes some rule writes (R30, R290), the capacity equation (R28), the CSD
structures (R130), the version (R138), the OCR's power-up bit (R184), 1.8 V only with a host that supports it (R194), the 1-bit
bus (R370), the canonical memory, a payload buffer only between acquire and release (R40, R207), no command register and no
descriptor left (R354), the call nesting of R50 with at most four levels (R329), the locals' bounds (R44), and under the core's
framer only frames a receiver accepts (R165). -/
def Obligations.EveryStepKeepsTheInvariant : Prop :=
  ∀ s t : State, Inv s → step s = .next t → Inv t

/-- The block right after reset meets the invariant. -/
def Obligations.ResetMeetsTheInvariant : Prop := Inv State.reset

/-- R351, R180, R98: what a step does. With no request the idle block waits and an operation in progress makes its next step. A
request word that decodes to an instruction is taken from the port of the idle block (its descriptor goes to the controller,
nothing else changes) and run: an operation and a reserved op code by `exec` whatever the mode of the request (log 17), a command
by `exec` in execute mode and by `execDescribe` in describe mode; a word that is no instruction is refused. The table words of
`withFetchWord` are run so. -/
def Obligations.StepRunsTheRequestedInstruction : Prop :=
  (∀ (s : State) (r : Request) (i : Instr), s.control = .idle → s.request = some r → decode r.word = .ok i →
    (r.hostSupplied = true ∨ IsOperation i ∨ (∃ op, i = .reservedOp op) →
      step s = exec i { s with request := none, callerDesc := r.desc }) ∧
    (r.hostSupplied = false → ¬ IsOperation i → (∀ op, i ≠ .reservedOp op) →
      step s = execDescribe i { s with request := none, callerDesc := r.desc })) ∧
  (∀ (s : State) (r : Request) (e : DecodeError), s.control = .idle → s.request = some r → decode r.word = .error e →
    step s = .refused (.notARequest e)) ∧
  (∀ s : State, s.control = .idle → s.request = none → step s = .next s) ∧
  (∀ s : State, s.control ≠ .idle → s.request = none → step s = .next (resume s)) ∧
  ∀ (s : State) (nbits w : Nat) (i : Instr), decodeTableWord nbits w = some i →
    step (s.withFetchWord nbits w) = exec i { s with control := .idle, request := none, callerDesc := none }

/-- R16, R11, R332, R333: one step of an operation in progress is one host-port call, answered by what the environment answers next,
or an internal computation that makes none and leaves system memory and the environment's answers to host calls alone (an
acquisition, R327, is drawn in an internal computation). A request itself makes no host-port call before its first step. R38, R39,
R262: the descriptors of the data phases, field by field, for both directions and for the two payloads, and the number of blocks. -/
def Obligations.EveryStepIsOneHostCallOrNone : Prop :=
  (∀ (s : State) (p : Point) (stack : List Frame), At s p stack →
    ∃ t, step s = .next t ∧ t.trace = (callAt s p).toList ++ s.trace ∧
      (callAt s p = none → t.mem = s.mem ∧ t.env = { s.env with acquisitions := t.env.acquisitions })) ∧
  (∀ (s t : State) (i : Instr), exec i s = .next t →
    t.trace = [] ∧ t.mem = s.mem ∧ t.env = { s.env with acquisitions := t.env.acquisitions }) ∧
  (∀ (s : State) (p : Addr) (n : Nat) (auto : BitVec 1), auto = (if 1 < n ∧ s.host.autoCmd12 = true then 1#1 else 0#1) →
    blockDescriptor s .read p n =
      { blockSize := s.card.blockSize
        blockCount := BitVec.ofNat 32 n
        capacity := BitVec.ofNat 64 (n * s.card.blockSize.toNat)
        rxBuffer := some (.system p)
        txBuffer := none
        flags := 0#1 ++ (auto ++ 1#1) } ∧
    blockDescriptor s .write p n =
      { blockSize := s.card.blockSize
        blockCount := BitVec.ofNat 32 n
        capacity := BitVec.ofNat 64 (n * s.card.blockSize.toNat)
        rxBuffer := none
        txBuffer := some p
        flags := 0#1 ++ (auto ++ 0#1) }) ∧
  payloadDescriptor 8#32 = ⟨8#32, 1#32, 8#64, some .payload, none, 1#3⟩ ∧
  payloadDescriptor 64#32 = ⟨64#32, 1#32, 64#64, some .payload, none, 1#3⟩

/-- R13, R50, R299, R302: what a return does. A controller requested directly, and a public operation, return to the caller. `detect`
inside `initial_device` returns false, or leads to `to_normal`, whose result `initial_device` returns; `inactivate_device` inside
`free_device` leads to the end of it. That `to_normal` refused by its guard (R294) has no diagnostic code is the model's choice,
log 11; that a return is a step of its own is log 1. -/
def Obligations.ReturnsUnwindTheCalls : Prop :=
  ∀ (s : State) (r : Result) (ok : Bool) (code : Option Result) (stack : List Frame),
    (At s (.returned r) [] → step s = .next (s.finish (decide (r = .well)) (some r))) ∧
    (At s (.ended ok code) [] → step s = .next (s.finish ok code)) ∧
    (At s (.ended false code) (.initialDetect :: stack) →
      step s = .next (s.setControl (.running (.ended false code) stack))) ∧
    (At s (.ended true code) (.initialDetect :: stack) →
      (s.card.rca = 0#16 ∨ s.card.mode = ModeName.inactive.bits →
        step s = .next (s.setControl (.running (.ended false none) (.initialNormal :: stack)))) ∧
      (s.card.rca ≠ 0#16 → s.card.mode ≠ ModeName.inactive.bits →
        step s = .next (startExchange (newCmd 9#6 (s.card.rca ++ 0#16) .r2) (.csd :: .normalCsd :: .initialNormal :: stack) s))) ∧
    (At s (.ended ok code) (.initialNormal :: stack) → step s = .next (s.setControl (.running (.ended ok code) stack))) ∧
    (At s (.ended ok code) (.freeDevice :: stack) →
      step s = .next ((s.setCard { s.card with allocated := false }).finish true (some .well)))

/-- R8, R34: no step writes the host binding or a parameter, and no step presents a request. -/
def Obligations.StepsNeverWriteTheConfiguration : Prop :=
  ∀ s t : State, step s = .next t →
    t.host = s.host ∧ t.params = s.params ∧ (t.request = s.request ∨ t.request = none)

/-- R74: a request while an operation is in progress is refused, and so is any instruction but a reserved op code (which is
refused for itself). That a direct request for a controller counts as an operation here, and that what is refused may be any word
at the port, is the model's choice, log 22. -/
def Obligations.OverlappingRequestsAreRefused : Prop :=
  (∀ (s : State) (r : Request), s.control ≠ .idle → s.request = some r → step s = .refused .overlappingRequest) ∧
  ∀ (s : State) (i : Instr), s.control ≠ .idle → (∀ op, i ≠ .reservedOp op) → exec i s = .refused .overlappingRequest

/-- R98, R334, R351: a reserved op code is refused, whatever the mode of the request and whether or not a Card is allocated. While no
Card is allocated every request other than `allocate_device` ends with false, with no host-port call, and changes nothing; its
code is `NullPtr` (R326 says so of the operations; for a controller requested directly, in execute and in describe mode, the code
is the model's choice, log 4). -/
def Obligations.ReservedAndUnallocatedRequests : Prop :=
  (∀ (s : State) (op : BitVec 4), exec (.reservedOp op) s = .refused (.reservedOpCode op)) ∧
  (∀ op : BitVec 4, op = 0#4 ∨ 9 ≤ op.toNat → ∀ b : BitVec 136, b.extractLsb 3 0 = op →
    decode (.op b) = .ok (.reservedOp op) ∧
    ∀ (s : State) (r : Request), s.control = .idle → s.request = some r → r.word = .op b →
      step s = .refused (.reservedOpCode op)) ∧
  (∀ (s : State) (i : Instr), s.control = .idle → s.card.allocated = false → i ≠ .allocateDevice →
    (∀ op, i ≠ .reservedOp op) →
    ∃ t, exec i s = .next t ∧ Finishes s.begin t s.card false (some .nullPtr) [] ∧ t.trace = [] ∧ t.mem = s.mem ∧
      t.env = s.env ∧ t.draws = s.draws) ∧
  ∀ (s : State) (r : Request) (i : Instr), s.control = .idle → s.card.allocated = false → s.request = some r →
    r.hostSupplied = false → decode r.word = .ok i → ¬ IsOperation i → (∀ op, i ≠ .reservedOp op) →
    ∃ t, step s = .next t ∧ Ended t false (some .nullPtr) ∧ t.control = .idle ∧ t.card = s.card ∧ t.trace = [] ∧
      t.mem = s.mem ∧ t.env = s.env ∧ t.draws = s.draws

/-- R290, R31: `card.mode` changes only at the lines that write it, to the value they write; a line right after a successful call,
and a teardown's last, does write it; the failure path of `to_normal` falls back from Transfer to StandBy. So in the whole run
of an instruction other than `allocate_device` it takes only the modes R290 gives that instruction. -/
def Obligations.ModeChangesOnlyInItsWriters : Prop :=
  (∀ (s t : State) (p : Point) (stack : List Frame), At s p stack → step s = .next t →
    (modeWrittenAt s.control = none → t.card.mode = s.card.mode) ∧
    ∀ m, modeWrittenAt s.control = some m →
      t.card.mode = m.bits ∨ ((∃ r e k, s.control = .running (.returned r) (.normalDeselect e :: k)) ∧
        s.card.mode ≠ ModeName.transfer.bits ∧ t.card.mode = s.card.mode)) ∧
  (∀ (s t : State) (i : Instr), i ≠ .allocateDevice → exec i s = .next t → t.card.mode = s.card.mode) ∧
  ∀ (s u : State) (i : Instr), s.request = none → i ≠ .allocateDevice → RunOf i s u →
    u.card.mode = s.card.mode ∨ ∃ m ∈ modesWrittenBy i, u.card.mode = m.bits

/-- R21, R22, R24, R26, R27, R28, R29, R32, R33, R34: each Card register changes only at the lines that write it, so apart from
`allocate_device` it changes in the whole run of an instruction, first step or later ones, only where that instruction is named as
its writer. -/
def Obligations.CardRegistersChangeOnlyInTheirWriters : Prop :=
  (∀ (s t : State) (p : Point) (stack : List Frame), At s p stack → step s = .next t →
    ∀ r : CardRegister, r ∉ registersWrittenAt s.control → r.same s.card t.card) ∧
  ∀ (s u : State) (i : Instr), s.request = none → i ≠ .allocateDevice → RunOf i s u →
    ∀ r : CardRegister, r ∉ registersWrittenBy i → r.same s.card u.card

/-- R321: `Retry` and `NotReady` are consumed inside the operations: no run of an operation ends with one of them. -/
def Obligations.OperationsNeverEndWithRetryOrNotReady : Prop :=
  ∀ (s u : State) (i : Instr), s.request = none → IsOperation i → RunOf i s u → ∀ ok r, Ended u ok (some r) →
    r ≠ .retry ∧ r ≠ .notReady

/-- R180, R205, R206: describe mode of each command: the row of R87 with its argument computed from the operands and the RCA, no
host-port call and no state written but the tuple handed to the caller. For CMD18 and CMD25 the block count is that of the
descriptor handed over, 0 for none: the model's choice, log 17. Of an ACMD41 argument the bits R91 marks 0 are 0 (R95; log 27). -/
def Obligations.DescribeModeGivesTheCommandMapRow : Prop :=
  (∀ (c : Card) (d : Option Descriptor) (a : Word) (m : SwitchMode) (g k : Nat),
    describe c d .cmd0 = some ⟨0#6, 0#32, .none, none⟩ ∧
    describe c d .cmd2 = some ⟨2#6, 0#32, .r2, none⟩ ∧
    describe c d .cmd3 = some ⟨3#6, 0#32, .r6, none⟩ ∧
    (1 ≤ g → g ≤ 6 → k ≤ 15 →
      describe c d (.cmd6 m g k) = some ⟨6#6, cmd6Arg m g k, .r1, some ⟨1#32, 64#32, .read⟩⟩) ∧
    describe c d (.cmd7 true) = some ⟨7#6, c.rca ++ 0#16, if c.rca = 0#16 then .none else .r1, none⟩ ∧
    describe c d (.cmd7 false) = some ⟨7#6, 0#32, .none, none⟩ ∧
    describe c d .cmd8 = some ⟨8#6, 0x000001AA#32, .r7, none⟩ ∧
    describe c d .cmd9 = some ⟨9#6, c.rca ++ 0#16, .r2, none⟩ ∧
    describe c d .cmd10 = some ⟨10#6, c.rca ++ 0#16, .r2, none⟩ ∧
    describe c d .cmd11 = some ⟨11#6, 0#32, .r1, none⟩ ∧
    describe c d .cmd12 = some ⟨12#6, 0#32, .r1b, none⟩ ∧
    describe c d .cmd13 = some ⟨13#6, c.rca ++ 0#16, .r1, none⟩ ∧
    describe c d .cmd15 = some ⟨15#6, c.rca ++ 0#16, .none, none⟩ ∧
    describe c d (.cmd16 a) = some ⟨16#6, a, .r1, none⟩ ∧
    describe c d (.cmd17 a) = some ⟨17#6, a, .r1, some ⟨1#32, c.blockSize, .read⟩⟩ ∧
    describe c d (.cmd18 a) = some ⟨18#6, a, .r1, some ⟨(d.map Descriptor.blockCount).getD 0#32, c.blockSize, .read⟩⟩ ∧
    describe c d (.cmd24 a) = some ⟨24#6, a, .r1, some ⟨1#32, c.blockSize, .write⟩⟩ ∧
    describe c d (.cmd25 a) = some ⟨25#6, a, .r1, some ⟨(d.map Descriptor.blockCount).getD 0#32, c.blockSize, .write⟩⟩ ∧
    describe c d (.cmd32 a) = some ⟨32#6, a, .r1, none⟩ ∧
    describe c d (.cmd33 a) = some ⟨33#6, a, .r1, none⟩ ∧
    describe c d .cmd38 = some ⟨38#6, 0#32, .r1b, none⟩ ∧
    describe c d .cmd55 = some ⟨55#6, c.rca ++ 0#16, .r1, none⟩ ∧
    describe c d (.acmd6 1) = some ⟨6#6, 0#32, .r1, none⟩ ∧
    describe c d (.acmd6 4) = some ⟨6#6, 2#32, .r1, none⟩ ∧
    describe c d (.acmd41 a) = some ⟨41#6, a &&& 0x41FFFFFF#32, .r3, none⟩ ∧
    describe c d .acmd51 = some ⟨51#6, 0#32, .r1, some ⟨1#32, 8#32, .read⟩⟩) ∧
  ∀ (s : State) (i : Instr) (x : Description), s.card.allocated = true → describe s.card s.callerDesc i = some x →
    execDescribe i s = .next { s.begin with callerDesc := none, outcome := some ⟨true, none, some x⟩ }

/-- R205, R206: what describe mode says is what execute mode sends, under the core's framer: every frame sent in the run of a
controller is the described one with the described response type and the data descriptor of the command (R38, R189, R199; for the
data commands the caller's as it stands, log 12), or, before an application command's own frame, the CMD55 prefix with none. -/
def Obligations.ExecuteModeSendsWhatDescribeModeSays : Prop :=
  ∀ (s u : State) (i : Instr) (x : Description), Ready s → s.host.framing = .coreCRC7 →
    describe s.card s.callerDesc i = some x → RunOf i s u →
    ∀ (c : CmdReg) (a : HostResult), HostEvent.sendCommand c a ∈ u.trace →
      (c.wire = frameOf x.index x.argument ∧ c.responseType = x.responseType ∧ c.data = attachedData s.callerDesc i) ∨
      (c.wire = frameOf 55#6 (s.card.rca ++ 0#16) ∧ c.responseType = .r1 ∧ c.data = none ∧
        ((∃ w, i = .acmd6 w) ∨ (∃ w, i = .acmd41 w) ∨ i = .acmd51))

/-! ## The commands -/

/-- R181: CMD0 drains the host's response register first, then sends its frame; only on `Well` the mode becomes Idle and the RCA 0. -/
def Obligations.Cmd0ResetsTheModeAndTheRca : Prop :=
  ∀ s : State, Ready s →
    (nextSend s.takeResponse = .well →
      CompletesWith .cmd0 s { s.card with mode := ModeName.idle.bits, rca := 0#16 } .well [0x400000000095#48]) ∧
    (∀ e, nextSend s.takeResponse = .error e →
      CompletesWith .cmd0 s s.card (errorCode e) [0x400000000095#48]) ∧
    ∀ u, RunOf .cmd0 s u → u.trace = [] ∨ u.trace.getLast? = some (.recvResponse s.responseAnswer)

/-- R186, R191, R86: CMD2 and CMD10 store the CID, the last response word most significant; the host's error leaves it unchanged. -/
def Obligations.Cmd2AndCmd10StoreTheCid : Prop :=
  ∀ s : State, Ready s →
    (nextSend s = .well → ∀ w : ResponseWords, w = nextResponse s →
      CompletesWith .cmd2 s { s.card with cid := w.w3 ++ (w.w2 ++ (w.w1 ++ w.w0)), cidValid := true } .well
        [0x42000000004D#48] ∧
      CompletesWith .cmd10 s { s.card with cid := w.w3 ++ (w.w2 ++ (w.w1 ++ w.w0)), cidValid := true } .well
        [frameOf 10#6 (s.card.rca ++ 0#16)]) ∧
    ∀ e, nextSend s = .error e →
      CompletesWith .cmd2 s s.card (errorCode e) [0x42000000004D#48] ∧
      CompletesWith .cmd10 s s.card (errorCode e) [frameOf 10#6 (s.card.rca ++ 0#16)]

/-- R187, R127: CMD3 stores bits 31:16 of the R6 payload unless one of its bits 15:13 is set. -/
def Obligations.Cmd3StoresTheRca : Prop :=
  ∀ s : State, Ready s →
    (nextSend s = .well → (nextResponse s).w0.extractLsb 15 13 = 0#3 →
      CompletesWith .cmd3 s { s.card with rca := (nextResponse s).w0.extractLsb 31 16 } .well [0x430000000021#48]) ∧
    (nextSend s = .well → (nextResponse s).w0.extractLsb 15 13 ≠ 0#3 →
      CompletesWith .cmd3 s s.card .anyError [0x430000000021#48]) ∧
    ∀ e, nextSend s = .error e → CompletesWith .cmd3 s s.card (errorCode e) [0x430000000021#48]

/-- R182: CMD8 makes attempts up to its bound: a success returns `Well`; after any other attempt the next one follows, with the same
frame each time; when the attempts are used up the last failure is the result (`CheckErr` where the bound is 0). So the first
attempt decides a CMD8 that succeeds at once or has one attempt, and a host that fails every attempt is answered by its error
after exactly the bound's number of frames. -/
def Obligations.Cmd8RetriesUpToItsBound : Prop :=
  (∀ (s : State) (k : Nat) (last : Result) (stack : List Frame), At s (.ifCondAttempt k last) stack →
    (s.params.cmd8MaxAttempts < k → Reaches (step s) s (.returned last) stack s.card []) ∧
    (k ≤ s.params.cmd8MaxAttempts →
      (ifCondResult s = .well → Reaches (step s) s (.returned .well) stack s.card [0x48000001AA87#48]) ∧
      (ifCondResult s ≠ .well →
        Reaches (step s) s (.ifCondAttempt (k + 1) (ifCondResult s)) stack s.card [0x48000001AA87#48]))) ∧
  ∀ s : State, Ready s →
    exec .cmd8 s = .next (s.begin.setControl (.running (.ifCondAttempt 1 .checkErr) [])) ∧
    (s.params.cmd8MaxAttempts = 0 → CompletesSilently .cmd8 s s.card false (some .checkErr)) ∧
    (1 ≤ s.params.cmd8MaxAttempts → ifCondResult s = .well ∨ s.params.cmd8MaxAttempts = 1 →
      CompletesWith .cmd8 s s.card (ifCondResult s) [0x48000001AA87#48]) ∧
    ∀ (e : HostError) (sc : List HostResult), 1 ≤ s.params.cmd8MaxAttempts →
      s.env.sendCommands = List.replicate s.params.cmd8MaxAttempts (.error e) ++ sc →
      CompletesWith .cmd8 s s.card (errorCode e) (List.replicate s.params.cmd8MaxAttempts 0x48000001AA87#48)

/-- R183: CMD55 writes no Card field; its result is the host's error, `AnyError`, `NotSupported` or `Well`, in that order. -/
def Obligations.Cmd55ChecksTheMaskThenAppCmd : Prop :=
  ∀ s : State, Ready s → CompletesWith .cmd55 s s.card (appPrefixResult s) [frameOf 55#6 (s.card.rca ++ 0#16)]

/-- R184, R206: ACMD41 sends its prefix first and its own frame only after `Well`; the OCR takes the word when bit 31 is set, else
the result is `Retry`. The argument bits R91 marks 0 are sent as 0 (R95; log 27). -/
def Obligations.Acmd41StoresThePoweredUpOcr : Prop :=
  ∀ (s : State) (a : Word), Ready s →
    (appPrefixResult s ≠ .well →
      CompletesWith (.acmd41 a) s s.card (appPrefixResult s) [frameOf 55#6 (s.card.rca ++ 0#16)]) ∧
    (appPrefixResult s = .well →
      (∀ e, nextSend (afterExchange true s) = .error e →
        CompletesWith (.acmd41 a) s s.card (errorCode e) [frameOf 55#6 (s.card.rca ++ 0#16), frameOf 41#6 (a &&& 0x41FFFFFF#32)]) ∧
      (nextSend (afterExchange true s) = .well → (nextResponse (afterExchange true s)).w0.getLsbD 31 = false →
        CompletesWith (.acmd41 a) s s.card .retry [frameOf 55#6 (s.card.rca ++ 0#16), frameOf 41#6 (a &&& 0x41FFFFFF#32)]) ∧
      (nextSend (afterExchange true s) = .well → (nextResponse (afterExchange true s)).w0.getLsbD 31 = true →
        CompletesWith (.acmd41 a) s { s.card with ocr := (nextResponse (afterExchange true s)).w0 } .well
          [frameOf 55#6 (s.card.rca ++ 0#16), frameOf 41#6 (a &&& 0x41FFFFFF#32)]))

/-- R194, R364: CMD11 is sent only under its guard (else no host-port call is made), and the voltage changes only after an error-free R1 and a successful
`switch_voltage`. -/
def Obligations.Cmd11SwitchesTheVoltageUnderItsGuard : Prop :=
  ∀ s : State, Ready s →
    (¬ (s.host.supports1V8 = true ∧ s.card.ocr.getLsbD 24 = true ∧ s.card.mode = ModeName.ready.bits) →
      CompletesSilently .cmd11 s s.card false (some .notSupported)) ∧
    (s.host.supports1V8 = true → s.card.ocr.getLsbD 24 = true → s.card.mode = ModeName.ready.bits →
      (r1Result s ≠ .well → CompletesWith .cmd11 s s.card (r1Result s) [0x4B0000000077#48]) ∧
      (r1Result s = .well →
        (∀ e, (afterExchange true s).voltageAnswer = .error e →
          CompletesWith .cmd11 s s.card (errorCode e) [0x4B0000000077#48]) ∧
        ((afterExchange true s).voltageAnswer = .well →
          CompletesWith .cmd11 s { s.card with voltage := 1#1 } .well [0x4B0000000077#48])))

/-- R188, R130, R86: CMD9 stores the CSD and the geometry of the layout its structure field selects; structures 2 and 3 and the host's
error write nothing. -/
def Obligations.Cmd9StoresTheCsdAndItsGeometry : Prop :=
  ∀ s : State, Ready s →
    (∀ e, nextSend s = .error e →
      CompletesWith .cmd9 s s.card (errorCode e) [frameOf 9#6 (s.card.rca ++ 0#16)]) ∧
    (nextSend s = .well → ∀ reg : Reg128, reg = (nextResponse s).w3 ++
        ((nextResponse s).w2 ++ ((nextResponse s).w1 ++ (nextResponse s).w0)) →
      ((nextResponse s).w3.extractLsb 31 30 = 0#2 →
        CompletesWith .cmd9 s
          ({ s.card with csd := reg, csdValid := true }.withGeometry
            (geometryV1 (csdV1 reg))) .well [frameOf 9#6 (s.card.rca ++ 0#16)]) ∧
      ((nextResponse s).w3.extractLsb 31 30 = 1#2 →
        CompletesWith .cmd9 s
          ({ s.card with csd := reg, csdValid := true }.withGeometry
            (geometryV2 (csdV2 reg))) .well [frameOf 9#6 (s.card.rca ++ 0#16)]) ∧
      (2 ≤ ((nextResponse s).w3.extractLsb 31 30).toNat →
        CompletesWith .cmd9 s s.card .notSupported [frameOf 9#6 (s.card.rca ++ 0#16)]))

/-- R189, R207, R136: ACMD51 acquires its payload, sends the prefix and its frame, checks the R1 and receives 8 bytes; the first
failure is the result and writes nothing (a failed acquisition makes no host-port call); else the SCR, its flag and the version are written. -/
def Obligations.Acmd51StoresTheScrAndTheVersion : Prop :=
  ∀ s : State, Ready s →
    (s.acquireAnswer = false → CompletesSilently .acmd51 s s.card false (some .memErr)) ∧
    (s.acquireAnswer = true → ∀ e : State, e = s.takeAcquisition →
      (appPrefixResult e ≠ .well →
        CompletesWith .acmd51 s s.card (appPrefixResult e) [frameOf 55#6 (s.card.rca ++ 0#16)]) ∧
      (appPrefixResult e = .well → r1Result (afterExchange true e) ≠ .well →
        CompletesWith .acmd51 s s.card (r1Result (afterExchange true e))
          [frameOf 55#6 (s.card.rca ++ 0#16), 0x7300000000C7#48]) ∧
      (appPrefixResult e = .well → r1Result (afterExchange true e) = .well → ∀ d : State,
        d = afterExchange true (afterExchange true e) →
        (∀ x, d.recvDataAnswer = .error x →
          CompletesWith .acmd51 s s.card (errorCode x) [frameOf 55#6 (s.card.rca ++ 0#16), 0x7300000000C7#48]) ∧
        (d.recvDataAnswer = .well →
          CompletesWith .acmd51 s
            { s.card with
              scr := assembleScr (d.recvDataBytes 8)
              scrValid := true
              version := versionOf (assembleScr (d.recvDataBytes 8)) }
            .well [frameOf 55#6 (s.card.rca ++ 0#16), 0x7300000000C7#48])))

/-- R190, R192, R124, R193, R195, the commands of file 42 section 4. CMD7: a select at a non-zero RCA checks its R1; a deselect, and a
select at RCA 0, sends the same frame and expects no response. CMD13: the host's error, then `AnyError`, then `NotReady`, else
`Well`. CMD12: every failure is `TransStopFail`. CMD15: the mode Inactive after `Well`, nothing after the host's error. No other
Card field is written. -/
def Obligations.SelectionAndStatusCommands : Prop :=
  ∀ s : State, Ready s →
    (s.card.rca ≠ 0#16 →
      CompletesWith (.cmd7 true) s s.card (r1Result s) [frameOf 7#6 (s.card.rca ++ 0#16)]) ∧
    (s.card.rca = 0#16 → CompletesWith (.cmd7 true) s s.card (sentResult s) [0x470000000083#48]) ∧
    CompletesWith (.cmd7 false) s s.card (sentResult s) [0x470000000083#48] ∧
    CompletesWith .cmd13 s s.card (statusResult s) [frameOf 13#6 (s.card.rca ++ 0#16)] ∧
    CompletesWith .cmd12 s s.card (stopResult s) [0x4C0000000061#48] ∧
    (nextSend s = .well →
      CompletesWith .cmd15 s { s.card with mode := ModeName.inactive.bits } .well [frameOf 15#6 (s.card.rca ++ 0#16)]) ∧
    ∀ e, nextSend s = .error e →
      CompletesWith .cmd15 s s.card (errorCode e) [frameOf 15#6 (s.card.rca ++ 0#16)]

/-- R196, R197, R198, R200, R201, R202, R203, R204: these commands send one frame, check its R1 or R1b, and write no Card field and
no memory. -/
def Obligations.CheckedCommandsReturnTheirR1 : Prop :=
  ∀ (s : State) (a : Word), Ready s →
    CompletesWith (.cmd16 a) s s.card (r1Result s) [frameOf 16#6 a] ∧
    CompletesWith (.cmd17 a) s s.card (r1Result s) [frameOf 17#6 a] ∧
    CompletesWith (.cmd18 a) s s.card (r1Result s) [frameOf 18#6 a] ∧
    CompletesWith (.cmd24 a) s s.card (r1Result s) [frameOf 24#6 a] ∧
    CompletesWith (.cmd25 a) s s.card (r1Result s) [frameOf 25#6 a] ∧
    CompletesWith (.cmd32 a) s s.card (r1Result s) [frameOf 32#6 a] ∧
    CompletesWith (.cmd33 a) s s.card (r1Result s) [frameOf 33#6 a] ∧
    CompletesWith .cmd38 s s.card (r1Result s) [0x6600000000A5#48]

/-- R211, R93: ACMD6 refuses a width other than 1 and 4, sends its prefix, then the frame of the width, checks its R1, and writes no
Card field (not `bus_width` either). -/
def Obligations.Acmd6SendsTheWidthCode : Prop :=
  ∀ (s : State) (w : Nat), Ready s →
    (w ≠ 1 → w ≠ 4 → CompletesSilently (.acmd6 w) s s.card false (some .argFault)) ∧
    (w = 1 ∨ w = 4 →
      (appPrefixResult s ≠ .well →
        CompletesWith (.acmd6 w) s s.card (appPrefixResult s) [frameOf 55#6 (s.card.rca ++ 0#16)]) ∧
      (appPrefixResult s = .well →
        CompletesWith (.acmd6 w) s s.card (r1Result (afterExchange true s))
          [frameOf 55#6 (s.card.rca ++ 0#16), frameOf 6#6 (if w = 4 then 2#32 else 0#32)]))

/-- R199, R139: CMD6 refuses operands out of range, acquires its payload, checks its R1, receives 64 bytes and writes the function
tables from them; the first failure is the result and writes nothing; the first two make no host-port call. -/
def Obligations.Cmd6StoresTheFunctionTables : Prop :=
  ∀ (s : State) (m : SwitchMode) (g k : Nat), Ready s →
    (g < 1 ∨ 6 < g ∨ 15 < k → CompletesSilently (.cmd6 m g k) s s.card false (some .argFault)) ∧
    (1 ≤ g → g ≤ 6 → k ≤ 15 →
      (s.acquireAnswer = false → CompletesSilently (.cmd6 m g k) s s.card false (some .memErr)) ∧
      (s.acquireAnswer = true → ∀ e : State, e = s.takeAcquisition →
        (r1Result e ≠ .well →
          CompletesWith (.cmd6 m g k) s s.card (r1Result e) [frameOf 6#6 (cmd6Arg m g k)]) ∧
        (r1Result e = .well →
          (∀ x, (afterExchange true e).recvDataAnswer = .error x →
            CompletesWith (.cmd6 m g k) s s.card (errorCode x) [frameOf 6#6 (cmd6Arg m g k)]) ∧
          ((afterExchange true e).recvDataAnswer = .well →
            CompletesWith (.cmd6 m g k) s (s.card.withSwitchStatus ((afterExchange true e).recvDataBytes 64)) .well
              [frameOf 6#6 (cmd6Arg m g k)]))))

/-- R240 to R245: a call of `negotiate` with `stack` waiting. In either phase a failing CMD16, acquisition, CMD6 or data phase
ends it with that result, nothing decoded and nothing further sent; no Switch phase follows a failed Check phase. A Check payload
without the support bit, or with another current function, ends it with `NotSupported` before the Switch phase; else the Switch
payload decides. CMD16(64) goes out before each CMD6, and the tables hold the last payload received. -/
def Obligations.NegotiateAcceptsInBothPhases : Prop :=
  ∀ (s : State) (g k : Nat) (stack : List Frame), s.request = none → s.payload = none → 1 ≤ g → g ≤ 6 → k ≤ 15 →
    (∀ (r : Result) (sent : Bool), SwitchPhaseFails s r sent →
      Reaches (.next (enterNegotiate g k stack s)) s (.returned r) stack s.card
        (0x5000000040F1#48 :: if sent then [frameOf 6#6 (cmd6Arg .check g k)] else [])) ∧
    ∀ (e : State) (p : List Byte), SwitchPhase s p e →
      (¬ ((fnSupportOf p g).getLsbD k = true ∧ (fnCurrentOf p g).toNat = k) →
        Reaches (.next (enterNegotiate g k stack s)) s (.returned .notSupported) stack (s.card.withSwitchStatus p)
          [0x5000000040F1#48, frameOf 6#6 (cmd6Arg .check g k)]) ∧
      ((fnSupportOf p g).getLsbD k = true → (fnCurrentOf p g).toNat = k →
        (∀ (r : Result) (sent : Bool), SwitchPhaseFails e r sent →
          Reaches (.next (enterNegotiate g k stack s)) s (.returned r) stack (s.card.withSwitchStatus p)
            (0x5000000040F1#48 :: frameOf 6#6 (cmd6Arg .check g k) :: 0x5000000040F1#48 ::
              if sent then [frameOf 6#6 (cmd6Arg .switch g k)] else [])) ∧
        ∀ (f : State) (q : List Byte), SwitchPhase e q f →
          Reaches (.next (enterNegotiate g k stack s)) s
            (.returned (if (fnCurrentOf q g).toNat = k then .well else .notSupported)) stack (s.card.withSwitchStatus q)
            [0x5000000040F1#48, frameOf 6#6 (cmd6Arg .check g k), 0x5000000040F1#48, frameOf 6#6 (cmd6Arg .switch g k)])

/-! ## Allocation, teardown and bring-up -/

/-- R300, R301, R354: `allocate_device` makes no host-port call; it is refused on an allocated Card, fails when the storage is not
acquired or the host's interface is incomplete (one of the nine mandatory functions missing, or `add_framing` where the framing is
the host's), and else writes the reset values. (Where no result code names the failure the
diagnostic is none: the model's choice, log 11.) -/
def Obligations.AllocateDeviceWritesTheResetValues : Prop :=
  ∀ s : State, s.control = .idle →
    (s.card.allocated = true → CompletesSilently .allocateDevice s s.card false none) ∧
    (s.card.allocated = false → s.acquireAnswer = false →
      CompletesSilently .allocateDevice s s.card false (some .memErr)) ∧
    (s.card.allocated = false → s.acquireAnswer = true → ¬ InterfaceSupplied s.host →
      CompletesSilently .allocateDevice s s.card false none) ∧
    (s.card.allocated = false → s.acquireAnswer = true → InterfaceSupplied s.host →
      CompletesSilently .allocateDevice s
        { rca := 0, ocr := 0, version := 0, voltage := 0, cid := 0, cidValid := false, csd := 0, csdValid := false,
          blockCount := 0, blockSize := 0, capacity := 0, scr := 0, scrValid := false, mode := 0,
          fnSupport := ⟨0, 0, 0, 0, 0, 0⟩, fnCurrent := ⟨0, 0, 0, 0, 0, 0⟩, fnValid := false, busWidth := .one,
          clockClass := .none, allocated := true } true (some .well))

/-- R302, R303, R371: the teardown sets the bus to 1 bit, deselects and sends CMD0, whatever the exchanges answer, and ends in
Inactive with true; `free_device` does so unless the Card is Inactive already, and un-allocates it. -/
def Obligations.TeardownDeselectsAndGoesIdle : Prop :=
  ∀ s : State, Ready s →
    Completes .inactivateDevice s (tornDown s) true (some .well) [0x470000000083#48, 0x400000000095#48] ∧
    (s.card.mode = ModeName.inactive.bits →
      CompletesSilently .freeDevice s { s.card with allocated := false } true (some .well)) ∧
    (s.card.mode ≠ ModeName.inactive.bits →
      Completes .freeDevice s { tornDown s with allocated := false } true (some .well)
        [0x470000000083#48, 0x400000000095#48]) ∧
    ∀ u, RunOf .inactivateDevice s u → u.trace = [] ∨ u.trace.getLast? = some (.setBusWidth .one)

/-- R291 step 1, R292 a: the insertion wait of `detect` and `initial_device`: a false answer makes another poll until the bound, where
`detect` fails; a true one leads on to the bus set-up. That the diagnostic of the failure is `Timeout` is R306 with
92_eei_decisions.md D59, read as log 11 says (DESIGN CHOICE). -/
def Obligations.InsertionWaitPollsUpToItsBound : Prop :=
  (∀ s : State, Ready s →
    exec .detect s = .next (s.begin.setControl (.running (.insertion 0) [])) ∧
    exec .initialDevice s = .next (s.begin.setControl (.running (.insertion 0) [.initialDetect]))) ∧
  ∀ (s : State) (k : Nat) (stack : List Frame), At s (.insertion k) stack →
    (s.insertedAnswer = true → Reaches (step s) s .identificationBus stack s.card []) ∧
    (s.insertedAnswer = false → limitReached s.params.insertPollLimit (k + 1) = true →
      Reaches (step s) s (.ended false (some .timeout)) stack s.card []) ∧
    (s.insertedAnswer = false → limitReached s.params.insertPollLimit (k + 1) = false →
      Reaches (step s) s (.insertion (k + 1)) stack s.card [])

/-- R291, R307: `detect` on a version-2.0 card that answers at once, with no 1.8 V switch: the frames in order, and what the Card
registers hold. The ACMD41 argument is R91's, HCS set. -/
def Obligations.DetectIdentifiesACard : Prop :=
  ∀ (s : State) (drained w8 w55 w41 wcid w3 : ResponseWords) (ins act : List Bool) (sc : List HostResult)
    (rs : List ResponseWords), Ready s → 1 ≤ s.params.cmd8MaxAttempts → 1 ≤ s.params.acmd41LoopBudget →
    s.env.inserted = true :: ins → s.env.activated = true :: act →
    s.env.sendCommands = List.replicate 6 .well ++ sc →
    s.env.responses = drained :: w8 :: w55 :: w41 :: wcid :: w3 :: rs →
    w8.w0.extractLsb 7 0 = 0xAA#8 → r1Ok w55.w0 = true → w55.w0.getLsbD 5 = true → w41.w0.getLsbD 31 = true →
    (s.host.supports1V8 = false ∨ w41.w0.getLsbD 24 = false) → w3.w0.extractLsb 15 13 = 0#3 →
    Completes .detect s
      { s.card with
        busWidth := .one
        clockClass := .f400K
        mode := ModeName.standBy.bits
        rca := w3.w0.extractLsb 31 16
        ocr := w41.w0
        cid := registerOfWords wcid
        cidValid := true }
      true (some .well)
      [0x400000000095#48, 0x48000001AA87#48, 0x770000000065#48,
        frameOf 41#6 ((s.params.ocrVoltageWindow &&& 0x00FFFFFF#32) ||| 0x40000000#32 |||
          (if s.host.supports1V8 then 0x01000000#32 else 0#32)),
        0x42000000004D#48, 0x430000000021#48]

/-- R291 step 7, R194: `detect` with a host that supports 1.8 V and a card whose OCR says so: CMD11 goes out between ACMD41 and CMD2,
and the voltage is 1.8 V at the end; an error of `switch_voltage` ends `detect` with that error, the fields written before kept. -/
def Obligations.DetectSwitchesTheVoltage : Prop :=
  ∀ (s : State) (drained w8 w55 w41 w11 : ResponseWords) (ins act : List Bool) (sc : List HostResult)
    (rs : List ResponseWords) (vs : List HostResult), Ready s → 1 ≤ s.params.cmd8MaxAttempts →
    1 ≤ s.params.acmd41LoopBudget → s.host.supports1V8 = true →
    s.env.inserted = true :: ins → s.env.activated = true :: act →
    s.env.responses = drained :: w8 :: w55 :: w41 :: w11 :: rs →
    w8.w0.extractLsb 7 0 = 0xAA#8 → r1Ok w55.w0 = true → w55.w0.getLsbD 5 = true → w41.w0.getLsbD 31 = true →
    w41.w0.getLsbD 24 = true → r1Ok w11.w0 = true →
    (∀ e : HostError, s.env.sendCommands = List.replicate 5 .well ++ sc → s.env.voltages = .error e :: vs →
      Completes .detect s
        { s.card with
          busWidth := .one
          clockClass := .f400K
          mode := ModeName.ready.bits
          rca := 0#16
          ocr := w41.w0 }
        false (some (errorCode e))
        [0x400000000095#48, 0x48000001AA87#48, 0x770000000065#48,
          frameOf 41#6 ((s.params.ocrVoltageWindow &&& 0x00FFFFFF#32) ||| 0x40000000#32 ||| 0x01000000#32),
          0x4B0000000077#48]) ∧
    ∀ (wcid w3 : ResponseWords) (rt : List ResponseWords), s.env.sendCommands = List.replicate 7 .well ++ sc →
      s.env.voltages = .well :: vs → rs = wcid :: w3 :: rt → w3.w0.extractLsb 15 13 = 0#3 →
      Completes .detect s
        { s.card with
          busWidth := .one
          clockClass := .f400K
          mode := ModeName.standBy.bits
          rca := w3.w0.extractLsb 31 16
          ocr := w41.w0
          voltage := 1#1
          cid := registerOfWords wcid
          cidValid := true }
        true (some .well)
        [0x400000000095#48, 0x48000001AA87#48, 0x770000000065#48,
          frameOf 41#6 ((s.params.ocrVoltageWindow &&& 0x00FFFFFF#32) ||| 0x40000000#32 ||| 0x01000000#32),
          0x4B0000000077#48, 0x42000000004D#48, 0x430000000021#48]

/-- R291: a failure of `detect` returns false at once, nothing undone and no deselect sent: a false activation (which has no result
code: the model's choice, log 11), a failing CMD0, CMD11, CMD2 or CMD3. CMD8's failure is not fatal. -/
def Obligations.DetectFailsAtOnce : Prop :=
  (∀ (s : State) (ins act : List Bool), Ready s → s.env.inserted = true :: ins → s.env.activated = false :: act →
    Completes .detect s { s.card with busWidth := .one, clockClass := .f400K } false none []) ∧
  (∀ (s : State) (ins act : List Bool) (e : HostError) (sc : List HostResult), Ready s →
    s.env.inserted = true :: ins → s.env.activated = true :: act → s.env.sendCommands = .error e :: sc →
    Completes .detect s { s.card with busWidth := .one, clockClass := .f400K } false (some (errorCode e))
      [0x400000000095#48]) ∧
  (∀ (s : State) (r : Result) (f : Frame) (stack : List Frame), f ∈ [.detectIdle, .detectVoltage, .detectCid, .detectRca] →
    r ≠ .well → At s (.returned r) (f :: stack) →
    step s = .next (s.setControl (.running (.ended false (some r)) stack))) ∧
  ∀ (s : State) (r : Result) (stack : List Frame), At s (.returned r) (.detectIfCond :: stack) →
    step s = .next (s.setControl (.running (.opCondIteration (decide (r = .well)) 1) stack))

/-- R291 step 5, R293, R362: a card that answers none of CMD8's attempts is identified all the same, with HCS and S18R clear in the
ACMD41 argument. -/
def Obligations.DetectWithoutCmd8ClearsHcs : Prop :=
  ∀ (s : State) (e : HostError) (drained w55 w41 wcid w3 : ResponseWords) (ins act : List Bool) (sc : List HostResult)
    (rs : List ResponseWords), Ready s → 1 ≤ s.params.acmd41LoopBudget →
    s.env.inserted = true :: ins → s.env.activated = true :: act →
    s.env.sendCommands = .well :: (List.replicate s.params.cmd8MaxAttempts (.error e) ++ (List.replicate 4 .well ++ sc)) →
    s.env.responses = drained :: w55 :: w41 :: wcid :: w3 :: rs →
    r1Ok w55.w0 = true → w55.w0.getLsbD 5 = true → w41.w0.getLsbD 31 = true →
    (s.host.supports1V8 = false ∨ w41.w0.getLsbD 24 = false) → w3.w0.extractLsb 15 13 = 0#3 →
    Completes .detect s
      { s.card with
        busWidth := .one
        clockClass := .f400K
        mode := ModeName.standBy.bits
        rca := w3.w0.extractLsb 31 16
        ocr := w41.w0
        cid := registerOfWords wcid
        cidValid := true }
      true (some .well)
      (0x400000000095#48 :: (List.replicate s.params.cmd8MaxAttempts 0x48000001AA87#48 ++
        [0x770000000065#48, frameOf 41#6 (s.params.ocrVoltageWindow &&& 0x00FFFFFF#32), 0x42000000004D#48,
          0x430000000021#48]))

/-- R293, R184, R291 steps 6 to 8, R194: in every iteration within the budget only `Retry` continues the ACMD41 loop, with the same
argument each time. `Well` (bit 31 set) ends it: the OCR takes the word, the mode is Ready, and the next exchange is CMD11 where
the host supports 1.8 V and the word has S18A, else CMD2. Every other result ends `detect` with it, and when the budget runs
out the result is `Timeout`. -/
def Obligations.Acmd41LoopContinuesOnlyOnRetry : Prop :=
  ∀ (s : State) (v2 : Bool) (k : Nat) (stack : List Frame), At s (.opCondIteration v2 k) stack →
    (s.params.acmd41LoopBudget < k → Reaches (step s) s (.ended false (some .timeout)) stack s.card []) ∧
    (k ≤ s.params.acmd41LoopBudget →
      (appPrefixResult s ≠ .well →
        Reaches (step s) s (.ended false (some (appPrefixResult s))) stack s.card [frameOf 55#6 (s.card.rca ++ 0#16)]) ∧
      (appPrefixResult s = .well →
        (∀ e, nextSend (afterExchange true s) = .error e →
          Reaches (step s) s (.ended false (some (errorCode e))) stack s.card
            [frameOf 55#6 (s.card.rca ++ 0#16), frameOf 41#6 (acmd41Arg s v2)]) ∧
        (nextSend (afterExchange true s) = .well → (nextResponse (afterExchange true s)).w0.getLsbD 31 = false →
          Reaches (step s) s (.opCondIteration v2 (k + 1)) stack s.card
            [frameOf 55#6 (s.card.rca ++ 0#16), frameOf 41#6 (acmd41Arg s v2)]) ∧
        (nextSend (afterExchange true s) = .well → ∀ w : Word, w = (nextResponse (afterExchange true s)).w0 →
          w.getLsbD 31 = true →
          (s.host.supports1V8 = true → w.getLsbD 24 = true →
            Starts (step s) s 11#6 0#32 .r1 none (.voltage :: .detectVoltage :: stack)
              { s.card with ocr := w, mode := ModeName.ready.bits }
              [frameOf 55#6 (s.card.rca ++ 0#16), frameOf 41#6 (acmd41Arg s v2)]) ∧
          (s.host.supports1V8 = false ∨ w.getLsbD 24 = false →
            Starts (step s) s 2#6 0#32 .r2 none (.cid :: .detectCid :: stack)
              { s.card with ocr := w, mode := ModeName.ready.bits }
              [frameOf 55#6 (s.card.rca ++ 0#16), frameOf 41#6 (acmd41Arg s v2)]))))

/-- R294, R296: `to_normal` on a version-1.0 card whose exchanges succeed: no CMD6, the clock at 25 MHz, block length 512, mode
Transfer. -/
def Obligations.ToNormalBringsAVersionOneCardToTransfer : Prop :=
  ∀ (s : State) (wcsd wsel w55 w51 w16 : ResponseWords) (f : CsdFields) (bytes : List Byte) (acq : List Bool)
    (sc : List HostResult) (rs : List ResponseWords) (rd : List (HostResult × List Byte)), Ready s →
    s.card.rca ≠ 0#16 → s.card.mode ≠ ModeName.inactive.bits →
    s.env.acquisitions = true :: acq → s.env.sendCommands = List.replicate 5 .well ++ sc →
    s.env.responses = wcsd :: wsel :: w55 :: w51 :: w16 :: rs → s.env.recvDatas = (.well, bytes) :: rd →
    bytes.length = 8 → csdFields (registerOfWords wcsd) = some f → r1Ok wsel.w0 = true → r1Ok w55.w0 = true →
    w55.w0.getLsbD 5 = true → r1Ok w51.w0 = true → versionOf (assembleScr bytes) = 0#2 → r1Ok w16.w0 = true →
    Completes .toNormal s
      { ({ ({ s.card with csd := registerOfWords wcsd, csdValid := true }.withGeometry f.geometry) with
            scr := assembleScr bytes
            scrValid := true
            version := 0#2
            clockClass := .f25M } : Card).fixBlockSize with
        mode := ModeName.transfer.bits }
      true (some .well)
      [frameOf 9#6 (s.card.rca ++ 0#16), frameOf 7#6 (s.card.rca ++ 0#16), frameOf 55#6 (s.card.rca ++ 0#16),
        0x7300000000C7#48, 0x500000020015#48]

/-- R294, R240, R246, R247, R307: `to_normal` on a card of version 1.1 or later that accepts every negotiation: the three pairs in
order, CMD16(64) before each CMD6, CMD16(512) last; each of the six payloads is the card's own, and the tables hold the last. -/
def Obligations.ToNormalNegotiatesThreeFunctions : Prop :=
  ∀ (s : State) (wcsd wsel w55 w51 : ResponseWords) (ws : List ResponseWords) (f : CsdFields)
    (bytes p1 p2 p3 p4 p5 p6 : List Byte) (acq : List Bool) (sc : List HostResult) (rs : List ResponseWords)
    (rd : List (HostResult × List Byte)), Ready s →
    s.card.rca ≠ 0#16 → s.card.mode ≠ ModeName.inactive.bits →
    s.env.acquisitions = List.replicate 7 true ++ acq → s.env.sendCommands = List.replicate 17 .well ++ sc →
    s.env.responses = wcsd :: wsel :: w55 :: w51 :: (ws ++ rs) → ws.length = 13 → (∀ w ∈ ws, r1Ok w.w0 = true) →
    s.env.recvDatas = (.well, bytes) :: (.well, p1) :: (.well, p2) :: (.well, p3) :: (.well, p4) :: (.well, p5) ::
      (.well, p6) :: rd →
    bytes.length = 8 → p1.length = 64 → p2.length = 64 → p3.length = 64 → p4.length = 64 → p5.length = 64 →
    p6.length = 64 → csdFields (registerOfWords wcsd) = some f → r1Ok wsel.w0 = true → r1Ok w55.w0 = true →
    w55.w0.getLsbD 5 = true → r1Ok w51.w0 = true → 1 ≤ (versionOf (assembleScr bytes)).toNat →
    (fnSupportOf p1 1).getLsbD 1 = true → fnCurrentOf p1 1 = 1#4 → fnCurrentOf p2 1 = 1#4 →
    (fnSupportOf p3 3).getLsbD 0 = true → fnCurrentOf p3 3 = 0#4 → fnCurrentOf p4 3 = 0#4 →
    (fnSupportOf p5 4).getLsbD 0 = true → fnCurrentOf p5 4 = 0#4 → fnCurrentOf p6 4 = 0#4 →
    Completes .toNormal s
      { (({ ({ s.card with csd := registerOfWords wcsd, csdValid := true }.withGeometry f.geometry) with
            scr := assembleScr bytes
            scrValid := true
            version := versionOf (assembleScr bytes)
            clockClass := .f25M } : Card).withSwitchStatus p6).fixBlockSize with
        mode := ModeName.transfer.bits }
      true (some .well)
      [frameOf 9#6 (s.card.rca ++ 0#16), frameOf 7#6 (s.card.rca ++ 0#16), frameOf 55#6 (s.card.rca ++ 0#16),
        0x7300000000C7#48,
        0x5000000040F1#48, 0x4600FFFFF11F#48, 0x5000000040F1#48, 0x4680FFFFF129#48,
        0x5000000040F1#48, 0x4600FFF0FF31#48, 0x5000000040F1#48, 0x4680FFF0FF07#48,
        0x5000000040F1#48, 0x4600FF0FFF09#48, 0x5000000040F1#48, 0x4680FF0FFF3F#48, 0x500000020015#48]

/-- R298, R249: the negotiator's `NotSupported` is no failure of `to_normal`: a card whose Check payload rejects high speed (no
Switch phase for it) is brought to Transfer all the same, the clock at 25 MHz, the two other pairs negotiated. -/
def Obligations.ToNormalGoesOnWithoutHighSpeed : Prop :=
  ∀ (s : State) (wcsd wsel w55 w51 : ResponseWords) (ws : List ResponseWords) (f : CsdFields)
    (bytes p1 p3 p4 p5 p6 : List Byte) (acq : List Bool) (sc : List HostResult) (rs : List ResponseWords)
    (rd : List (HostResult × List Byte)), Ready s →
    s.card.rca ≠ 0#16 → s.card.mode ≠ ModeName.inactive.bits →
    s.env.acquisitions = List.replicate 6 true ++ acq → s.env.sendCommands = List.replicate 15 .well ++ sc →
    s.env.responses = wcsd :: wsel :: w55 :: w51 :: (ws ++ rs) → ws.length = 11 → (∀ w ∈ ws, r1Ok w.w0 = true) →
    s.env.recvDatas = (.well, bytes) :: (.well, p1) :: (.well, p3) :: (.well, p4) :: (.well, p5) :: (.well, p6) :: rd →
    bytes.length = 8 → p1.length = 64 → p3.length = 64 → p4.length = 64 → p5.length = 64 → p6.length = 64 →
    csdFields (registerOfWords wcsd) = some f → r1Ok wsel.w0 = true → r1Ok w55.w0 = true →
    w55.w0.getLsbD 5 = true → r1Ok w51.w0 = true → 1 ≤ (versionOf (assembleScr bytes)).toNat →
    (fnSupportOf p1 1).getLsbD 1 = false ∨ fnCurrentOf p1 1 ≠ 1#4 →
    (fnSupportOf p3 3).getLsbD 0 = true → fnCurrentOf p3 3 = 0#4 → fnCurrentOf p4 3 = 0#4 →
    (fnSupportOf p5 4).getLsbD 0 = true → fnCurrentOf p5 4 = 0#4 → fnCurrentOf p6 4 = 0#4 →
    Completes .toNormal s
      { (({ ({ s.card with csd := registerOfWords wcsd, csdValid := true }.withGeometry f.geometry) with
            scr := assembleScr bytes
            scrValid := true
            version := versionOf (assembleScr bytes)
            clockClass := .f25M } : Card).withSwitchStatus p6).fixBlockSize with
        mode := ModeName.transfer.bits }
      true (some .well)
      [frameOf 9#6 (s.card.rca ++ 0#16), frameOf 7#6 (s.card.rca ++ 0#16), frameOf 55#6 (s.card.rca ++ 0#16),
        0x7300000000C7#48,
        0x5000000040F1#48, 0x4600FFFFF11F#48,
        0x5000000040F1#48, 0x4600FFF0FF31#48, 0x5000000040F1#48, 0x4680FFF0FF07#48,
        0x5000000040F1#48, 0x4600FF0FFF09#48, 0x5000000040F1#48, 0x4680FF0FFF3F#48, 0x500000020015#48]

/-- R294, R297, R298, R330: `to_normal` is refused with no host-port call at RCA 0 and in Inactive (that this has no diagnostic code is
the model's choice, log 11). When one of its calls fails it deselects the card, whatever that exchange answers, falls back from
Transfer to StandBy, keeps the fields written before and returns false with the failure's code; of a negotiation, `NotSupported`
is no failure. A failing CMD9 is the instance with no field written. -/
def Obligations.ToNormalRefusesOrFailsWithADeselect : Prop :=
  (∀ s : State, Ready s → s.card.rca = 0#16 ∨ s.card.mode = ModeName.inactive.bits →
    CompletesSilently .toNormal s s.card false none) ∧
  (∀ (s : State) (r : Result) (f : Frame) (stack : List Frame), At s (.returned r) (f :: stack) →
    (f ∈ [.normalCsd, .normalSelect, .normalScr, .normalLength] ∧ r ≠ .well) ∨
      (f ∈ [.normalSpeed, .normalDrive, .normalPower] ∧ r ≠ .well ∧ r ≠ .notSupported) →
    Reaches (step s) s (.ended false (some r)) stack
      { s.card with mode := if s.card.mode = ModeName.transfer.bits then ModeName.standBy.bits else s.card.mode }
      [0x470000000083#48]) ∧
  (∀ (s : State) (r : Result) (stack : List Frame), r = .well ∨ r = .notSupported →
    (At s (.returned r) (.normalSpeed :: stack) → step s = .next (s.setControl (.running .transferClock stack))) ∧
    (At s (.returned r) (.normalDrive :: stack) → step s = .next (enterNegotiate 4 0 (.normalPower :: stack) s)) ∧
    (At s (.returned r) (.normalPower :: stack) →
      step s = .next (startExchange (newCmd 16#6 512#32 .r1) (.checked :: .normalLength :: stack) s))) ∧
  ∀ (s : State) (e : HostError), Ready s → s.card.rca ≠ 0#16 → s.card.mode ≠ ModeName.inactive.bits →
    nextSend s = .error e →
    Completes .toNormal s
      { s.card with mode := if s.card.mode = ModeName.transfer.bits then ModeName.standBy.bits else s.card.mode }
      false (some (errorCode e)) [frameOf 9#6 (s.card.rca ++ 0#16), 0x470000000083#48]

/-- R299: `initial_device` is `detect` followed by `to_normal`: on a card that answers at once and is of version 1.0, from Idle to
Transfer. -/
def Obligations.InitialDeviceBringsACardToTransfer : Prop :=
  ∀ (s : State) (drained w8 w55 w41 wcid w3 wcsd wsel v55 w51 w16 : ResponseWords) (f : CsdFields) (bytes : List Byte)
    (ins act acq : List Bool) (sc : List HostResult) (rs : List ResponseWords) (rd : List (HostResult × List Byte)),
    Ready s → 1 ≤ s.params.cmd8MaxAttempts → 1 ≤ s.params.acmd41LoopBudget →
    s.env.inserted = true :: ins → s.env.activated = true :: act → s.env.acquisitions = true :: acq →
    s.env.sendCommands = List.replicate 11 .well ++ sc →
    s.env.responses = drained :: w8 :: w55 :: w41 :: wcid :: w3 :: wcsd :: wsel :: v55 :: w51 :: w16 :: rs →
    s.env.recvDatas = (.well, bytes) :: rd → bytes.length = 8 →
    w8.w0.extractLsb 7 0 = 0xAA#8 → r1Ok w55.w0 = true → w55.w0.getLsbD 5 = true → w41.w0.getLsbD 31 = true →
    (s.host.supports1V8 = false ∨ w41.w0.getLsbD 24 = false) → w3.w0.extractLsb 15 13 = 0#3 →
    w3.w0.extractLsb 31 16 ≠ 0#16 → csdFields (registerOfWords wcsd) = some f → r1Ok wsel.w0 = true →
    r1Ok v55.w0 = true → v55.w0.getLsbD 5 = true → r1Ok w51.w0 = true → versionOf (assembleScr bytes) = 0#2 →
    r1Ok w16.w0 = true →
    Completes .initialDevice s
      { ({ ({ s.card with
                busWidth := .one
                rca := w3.w0.extractLsb 31 16
                ocr := w41.w0
                cid := registerOfWords wcid
                cidValid := true
                csd := registerOfWords wcsd
                csdValid := true }.withGeometry f.geometry) with
            scr := assembleScr bytes
            scrValid := true
            version := 0#2
            clockClass := .f25M } : Card).fixBlockSize with
        mode := ModeName.transfer.bits }
      true (some .well)
      [0x400000000095#48, 0x48000001AA87#48, 0x770000000065#48,
        frameOf 41#6 ((s.params.ocrVoltageWindow &&& 0x00FFFFFF#32) ||| 0x40000000#32 |||
          (if s.host.supports1V8 then 0x01000000#32 else 0#32)),
        0x42000000004D#48, 0x430000000021#48,
        frameOf 9#6 (w3.w0.extractLsb 31 16 ++ 0#16), frameOf 7#6 (w3.w0.extractLsb 31 16 ++ 0#16),
        frameOf 55#6 (w3.w0.extractLsb 31 16 ++ 0#16), 0x7300000000C7#48, 0x500000020015#48]

/-! ## Block transfers -/

/-- R260, R323, R304, R305: the argument checks of `rw_blocks` and `format_blocks`, in their order, with no host-port call; arguments
that pass lead to the first status poll and to the first erase chunk. -/
def Obligations.TransferArgumentsAreCheckedFirst : Prop :=
  ∀ (s : State) (start count : Word) (dir : Direction) (p : Addr), Ready s →
    CompletesSilently (.rwBlocks none start count dir) s s.card false (some .nullPtr) ∧
    (count = 0#32 ∨ s.card.blockCount.toNat < start.toNat + count.toNat ∨
        (s.card.ocr.getLsbD 30 = false ∧ 2 ^ 32 ≤ (start.toNat + count.toNat - 1) * s.card.blockSize.toNat) →
      CompletesSilently (.rwBlocks (some p) start count dir) s s.card false (some .argFault) ∧
      CompletesSilently (.formatBlocks start count) s s.card false (some .argFault)) ∧
    (1 ≤ count.toNat → start.toNat + count.toNat ≤ s.card.blockCount.toNat →
      (s.card.ocr.getLsbD 30 = false → (start.toNat + count.toNat - 1) * s.card.blockSize.toNat < 2 ^ 32) →
      exec (.rwBlocks (some p) start count dir) s = .next (s.begin.setControl (.running
        (.statusPoll { dir := dir, buffer := p, block := start.toNat, remaining := count.toNat, retry := 0, polls := 0 })
        [])) ∧
      exec (.formatBlocks start count) s =
        .next (s.begin.setControl (.running (.eraseChunk start.toNat count.toNat) [])))

/-- R263, R192: the status poll before an attempt, the first one of a request as every later one: `NotReady` polls again until the
bound, which ends the operation with `Timeout`; every other failure ends it at once. That no byte of the receive buffer changes
where a failed poll ends a read is the model's choice, log 26 (R269 and V-BT-16 give those bytes any value). -/
def Obligations.StatusPollRepeatsOnlyNotReady : Prop :=
  ∀ (s : State) (cur : Cursor) (stack : List Frame), At s (.statusPoll cur) stack →
    (statusResult s ≠ .well → statusResult s ≠ .notReady →
      Reaches (step s) s (.ended false (some (statusResult s))) stack s.card [frameOf 13#6 (s.card.rca ++ 0#16)]) ∧
    (statusResult s = .notReady → limitReached s.params.statusPollLimit (cur.polls + 1) = true →
      Reaches (step s) s (.ended false (some .timeout)) stack s.card [frameOf 13#6 (s.card.rca ++ 0#16)]) ∧
    (statusResult s = .notReady → limitReached s.params.statusPollLimit (cur.polls + 1) = false →
      Reaches (step s) s (.statusPoll { cur with polls := cur.polls + 1 }) stack s.card
        [frameOf 13#6 (s.card.rca ++ 0#16)])

/-- R264, R304, R64: a read that is one transaction, on a card that is ready and accepts the command, and a data phase that
succeeds: byte `i` received stands at `buffer + i`, every other byte of memory is unchanged, CMD12 follows when it must, and its
result is the operation's. That the received bytes stand there also when that CMD12 fails is the model's choice, log 28 (R269 gives
the blocks of a failed chunk any value). -/
def Obligations.ReadTransactionFillsTheBuffer : Prop :=
  ∀ (s e : State) (p : Addr) (start count : Word) (n : Nat), Ready s → s.mem.wf = true → n = count.toNat → 1 ≤ n →
    n ≤ s.host.maxBlockCount → start.toNat + n ≤ s.card.blockCount.toNat →
    (s.card.ocr.getLsbD 30 = false → (start.toNat + n - 1) * s.card.blockSize.toNat < 2 ^ 32) →
    statusResult s = .well → r1Result (afterExchange true s) = .well →
    e = afterExchange true (afterExchange true s) → e.recvDataAnswer = .well →
    ∀ r : Result,
      ((stopNeeded s.host n → r = stopResult (e.takeRecvData (n * s.card.blockSize.toNat))) ∧
        (¬ stopNeeded s.host n → r = .well)) →
      ∃ t, exec (.rwBlocks (some p) start count .read) s = .next t ∧ ∃ u, Steps t u ∧
        ((stopNeeded s.host n →
            Finishes s.begin u s.card (decide (r = .well)) (some r)
              [frameOf 13#6 (s.card.rca ++ 0#16), frameOf (dataIndex .read n) (s.card.address start.toNat),
                0x4C0000000061#48]) ∧
          (¬ stopNeeded s.host n →
            Finishes s.begin u s.card (decide (r = .well)) (some r)
              [frameOf 13#6 (s.card.rca ++ 0#16), frameOf (dataIndex .read n) (s.card.address start.toNat)])) ∧
        (∀ i, i < n * s.card.blockSize.toNat →
          u.mem.read (byteAddress p i) = (e.recvDataBytes (n * s.card.blockSize.toNat)).getD i 0#8) ∧
        ∀ a, OutsideBuffer p (n * s.card.blockSize.toNat) a → u.mem.read a = s.mem.read a

/-- R265, R304, R64, R333: a write that is one transaction, on a card that is ready and accepts the command, and a data phase that
succeeds: the host has read the buffer's bytes in order, and no byte of memory has changed. -/
def Obligations.WriteTransactionSendsTheBuffer : Prop :=
  ∀ (s e : State) (p : Addr) (start count : Word) (n : Nat), Ready s → n = count.toNat → 1 ≤ n →
    n ≤ s.host.maxBlockCount → start.toNat + n ≤ s.card.blockCount.toNat →
    (s.card.ocr.getLsbD 30 = false → (start.toNat + n - 1) * s.card.blockSize.toNat < 2 ^ 32) →
    statusResult s = .well → r1Result (afterExchange true s) = .well →
    e = afterExchange true (afterExchange true s) → e.sendDataAnswer = .well →
    ∀ r : Result,
      ((stopNeeded s.host n → r = stopResult e.takeSendData) ∧ (¬ stopNeeded s.host n → r = .well)) →
      ∃ t, exec (.rwBlocks (some p) start count .write) s = .next t ∧ ∃ u, Steps t u ∧
        ((stopNeeded s.host n →
            Finishes s.begin u s.card (decide (r = .well)) (some r)
              [frameOf 13#6 (s.card.rca ++ 0#16), frameOf (dataIndex .write n) (s.card.address start.toNat),
                0x4C0000000061#48]) ∧
          (¬ stopNeeded s.host n →
            Finishes s.begin u s.card (decide (r = .well)) (some r)
              [frameOf 13#6 (s.card.rca ++ 0#16), frameOf (dataIndex .write n) (s.card.address start.toNat)])) ∧
        MemorySame s u ∧
        ∃ d bytes, HostEvent.sendData d bytes .well ∈ u.trace ∧ bytes.length = n * s.card.blockSize.toNat ∧
          ∀ i, i < n * s.card.blockSize.toNat → bytes.getD i 0#8 = s.mem.read (byteAddress p i)

/-- R261, R71: the card address of a block, truncated to 32 bits; R260's checks make the truncation a no-op for every block of the
range. -/
def Obligations.CardAddressOfABlock : Prop :=
  (∀ (c : Card) (b : Nat),
    (c.ocr.getLsbD 30 = true → (c.address b).toNat = b % 2 ^ 32) ∧
    (c.ocr.getLsbD 30 = false → (c.address b).toNat = b * c.blockSize.toNat % 2 ^ 32)) ∧
  ∀ (c : Card) (start count : Nat), checkRange c start count = .well → c.blockCount.toNat ≤ 2 ^ 32 → ∀ b, start ≤ b →
    b < start + count → (c.address b).toNat = if c.ocr.getLsbD 30 then b else b * c.blockSize.toNat

/-- R266, R269, R267: after a failed data phase the transaction runs once more while retries are left, and then ends with
`RecvDataFail` or `SendDataFail`, whatever the host answered; CMD12 follows the data phase when it must, and whatever it answers the
data-phase failure counts. Memory outside the transaction's receive buffer is unchanged, and no Card field is written. This holds
of the first transaction of a request as of every later one. -/
def Obligations.FailedDataPhaseIsRetried : Prop :=
  ∀ (s : State) (cur : Cursor) (stack : List Frame) (n : Nat) (x : HostError), At s (.statusPoll cur) stack →
    n = min cur.remaining (max 1 s.host.maxBlockCount) → n * s.card.blockSize.toNat < 2 ^ 64 →
    statusResult s = .well → r1Result (afterExchange true s) = .well →
    dataAnswer cur.dir (afterExchange true (afterExchange true s)) = .error x →
    ∃ t, step s = .next t ∧ ∃ u, Steps t u ∧
      (∀ frames, frames = [frameOf 13#6 (s.card.rca ++ 0#16), frameOf (dataIndex cur.dir n) (s.card.address cur.block)] →
        (cur.retry < s.params.dataRetry →
          (stopNeeded s.host n → Stands s u (.statusPoll { cur with retry := cur.retry + 1, polls := 0 }) stack s.card
            (frames ++ [0x4C0000000061#48])) ∧
          (¬ stopNeeded s.host n →
            Stands s u (.statusPoll { cur with retry := cur.retry + 1, polls := 0 }) stack s.card frames)) ∧
        (s.params.dataRetry ≤ cur.retry → ∀ code, code = (match cur.dir with | .read => Result.recvDataFail | .write => .sendDataFail) →
          (stopNeeded s.host n → Stands s u (.ended false (some code)) stack s.card (frames ++ [0x4C0000000061#48])) ∧
          (¬ stopNeeded s.host n → Stands s u (.ended false (some code)) stack s.card frames))) ∧
      (cur.dir = .write → MemorySame s u) ∧
      (cur.dir = .read → ∀ a, OutsideBuffer cur.buffer (n * s.card.blockSize.toNat) a → u.mem.read a = s.mem.read a)

/-- R262, R264, R265, R64: a successful transaction, the first one of a request or a later one, of what remains, at most
`HOST_MAX_BLOCK_COUNT` blocks (which R8 makes at least 1; a 0 is taken as 1, log 10): with blocks left the transfer goes on
with the next blocks and the next part of the buffer; with none left it ends with true. The bytes received stand in this part of
the buffer and every other byte of memory is unchanged; a write changes none. -/
def Obligations.SuccessfulTransactionAdvancesTheCursor : Prop :=
  ∀ (s e : State) (cur : Cursor) (stack : List Frame) (n : Nat), At s (.statusPoll cur) stack →
    n = min cur.remaining (max 1 s.host.maxBlockCount) → n * s.card.blockSize.toNat < 2 ^ 64 → s.mem.wf = true →
    statusResult s = .well → r1Result (afterExchange true s) = .well →
    e = afterExchange true (afterExchange true s) → dataAnswer cur.dir e = .well →
    (stopNeeded s.host n → stopResult (afterData cur.dir (n * s.card.blockSize.toNat) e) = .well) →
    ∃ t, step s = .next t ∧ ∃ u, Steps t u ∧
      (∀ p : Point, (cur.remaining ≤ n → p = .ended true (some .well)) →
        (n < cur.remaining → p = .statusPoll
          { cur with
            buffer := cur.buffer + BitVec.ofNat 64 (n * s.card.blockSize.toNat)
            block := cur.block + n
            remaining := cur.remaining - n
            retry := 0
            polls := 0 }) →
        (stopNeeded s.host n → Stands s u p stack s.card
          [frameOf 13#6 (s.card.rca ++ 0#16), frameOf (dataIndex cur.dir n) (s.card.address cur.block),
            0x4C0000000061#48]) ∧
        (¬ stopNeeded s.host n → Stands s u p stack s.card
          [frameOf 13#6 (s.card.rca ++ 0#16), frameOf (dataIndex cur.dir n) (s.card.address cur.block)])) ∧
      (cur.dir = .write → MemorySame s u) ∧
      (cur.dir = .read →
        (∀ i, i < n * s.card.blockSize.toNat → u.mem.read (byteAddress cur.buffer i) =
          (e.recvDataBytes (n * s.card.blockSize.toNat)).getD i 0#8) ∧
        ∀ a, OutsideBuffer cur.buffer (n * s.card.blockSize.toNat) a → u.mem.read a = s.mem.read a)

/-- R267, R264, R265, R193: after the status poll the data command goes out with the descriptor of the transaction (its fields are in
EveryStepIsOneHostCallOrNone). When the command phase fails no data phase starts, no StopTransmission is sent, and no byte of
memory changes (log 26); after a successful data phase with more than one block and no automatic CMD12 exactly one is sent, and
when it fails the result is `TransStopFail`; with the automatic CMD12 the descriptor says so. (The other cases of R267, each with
its frames, are in FailedDataPhaseIsRetried and SuccessfulTransactionAdvancesTheCursor.) -/
def Obligations.StopTransmissionIsSentExactlyOnce : Prop :=
  ∀ (s e : State) (cur : Cursor) (stack : List Frame) (n : Nat), At s (.statusPoll cur) stack →
    n = min cur.remaining (max 1 s.host.maxBlockCount) → statusResult s = .well → e = afterExchange true (afterExchange true s) →
    Starts (step s) s (dataIndex cur.dir n) (s.card.address cur.block) .r1 (some (blockDescriptor s cur.dir cur.buffer n))
      (.checked :: .commanded cur :: stack) s.card [frameOf 13#6 (s.card.rca ++ 0#16)] ∧
    (r1Result (afterExchange true s) ≠ .well →
      Reaches (step s) s (.ended false (some (r1Result (afterExchange true s)))) stack s.card
        [frameOf 13#6 (s.card.rca ++ 0#16), frameOf (dataIndex cur.dir n) (s.card.address cur.block)]) ∧
    (r1Result (afterExchange true s) = .well → dataAnswer cur.dir e = .well → stopNeeded s.host n →
      n * s.card.blockSize.toNat < 2 ^ 64 →
      stopResult (afterData cur.dir (n * s.card.blockSize.toNat) e) ≠ .well →
      ∃ t, step s = .next t ∧ ∃ u, Steps t u ∧
        Stands s u (.ended false (some .transStopFail)) stack s.card
          [frameOf 13#6 (s.card.rca ++ 0#16), frameOf (dataIndex cur.dir n) (s.card.address cur.block),
            0x4C0000000061#48]) ∧
    ((blockDescriptor s cur.dir cur.buffer n).flags.getLsbD 1 = true ↔ 1 < n ∧ s.host.autoCmd12 = true)

/-- R268, R272, R305: one chunk of an erase, the first one of a request or a later one, of what remains, at most
`HOST_MAX_BLOCK_COUNT` blocks (a 0 is taken as 1, log 10): CMD32, CMD33 with the inclusive end address,
CMD38. The first failure ends the operation without the rest; after a success the next chunk follows, or the operation ends with
true. A `format_blocks` of one chunk completes so. -/
def Obligations.EraseChunkSendsThreeCommands : Prop :=
  ∀ (s : State) (block remaining n : Nat), n = min remaining (max 1 s.host.maxBlockCount) →
    (∀ stack : List Frame, At s (.eraseChunk block remaining) stack →
      (r1Result s ≠ .well →
        Reaches (step s) s (.ended false (some (r1Result s))) stack s.card [frameOf 32#6 (s.card.address block)]) ∧
      (r1Result s = .well → r1Result (afterExchange true s) ≠ .well →
        Reaches (step s) s (.ended false (some (r1Result (afterExchange true s)))) stack s.card
          [frameOf 32#6 (s.card.address block), frameOf 33#6 (s.card.address (block + n - 1))]) ∧
      (r1Result s = .well → r1Result (afterExchange true s) = .well →
        (r1Result (afterExchange true (afterExchange true s)) ≠ .well →
          Reaches (step s) s (.ended false (some (r1Result (afterExchange true (afterExchange true s))))) stack s.card
            [frameOf 32#6 (s.card.address block), frameOf 33#6 (s.card.address (block + n - 1)), 0x6600000000A5#48]) ∧
        (r1Result (afterExchange true (afterExchange true s)) = .well →
          (remaining ≤ n →
            Reaches (step s) s (.ended true (some .well)) stack s.card
              [frameOf 32#6 (s.card.address block), frameOf 33#6 (s.card.address (block + n - 1)), 0x6600000000A5#48]) ∧
          (n < remaining →
            Reaches (step s) s (.eraseChunk (block + n) (remaining - n)) stack s.card
              [frameOf 32#6 (s.card.address block), frameOf 33#6 (s.card.address (block + n - 1)), 0x6600000000A5#48])))) ∧
    ∀ start count : Word, Ready s → block = start.toNat → remaining = count.toNat →
      checkRange s.card block remaining = .well → remaining ≤ n → r1Result s = .well →
      r1Result (afterExchange true s) = .well → r1Result (afterExchange true (afterExchange true s)) = .well →
      Completes (.formatBlocks start count) s s.card true (some .well)
        [frameOf 32#6 (s.card.address block), frameOf 33#6 (s.card.address (block + n - 1)), 0x6600000000A5#48]

/-- R269: the engine writes no Card field, in the request and in every later step of it, and an erase changes no byte of system
memory. -/
def Obligations.TheEngineWritesNoCardField : Prop :=
  (∀ (s u : State) (b : Option Addr) (start count : Word) (dir : Direction), s.request = none →
    RunOf (.rwBlocks b start count dir) s u → u.card = s.card) ∧
  ∀ (s u : State) (start count : Word), s.request = none → RunOf (.formatBlocks start count) s u →
    u.card = s.card ∧ MemorySame s u
end

