-- ==== Sys2Proof/Laws/State.lean ====
section
/-! SUPPORT. One lemma per field per update of the state, each true by `rfl`, and the updates that take an answer from the
environment written as `setEnv`. -/

namespace Sys2Proof.Machine

variable (s : State)

@[simp] theorem setCard_host (c : Card) : (s.setCard c).host = s.host := rfl
@[simp] theorem setCard_params (c : Card) : (s.setCard c).params = s.params := rfl
@[simp] theorem setCard_card (c : Card) : (s.setCard c).card = c := rfl
@[simp] theorem setCard_cmd (c : Card) : (s.setCard c).cmd = s.cmd := rfl
@[simp] theorem setCard_payload (c : Card) : (s.setCard c).payload = s.payload := rfl
@[simp] theorem setCard_control (c : Card) : (s.setCard c).control = s.control := rfl
@[simp] theorem setCard_mem (c : Card) : (s.setCard c).mem = s.mem := rfl
@[simp] theorem setCard_request (c : Card) : (s.setCard c).request = s.request := rfl
@[simp] theorem setCard_callerDesc (c : Card) : (s.setCard c).callerDesc = s.callerDesc := rfl
@[simp] theorem setCard_outcome (c : Card) : (s.setCard c).outcome = s.outcome := rfl
@[simp] theorem setCard_trace (c : Card) : (s.setCard c).trace = s.trace := rfl
@[simp] theorem setCard_env (c : Card) : (s.setCard c).env = s.env := rfl
@[simp] theorem setCard_draws (c : Card) : (s.setCard c).draws = s.draws := rfl

@[simp] theorem setCmd_host (c : CmdReg) : (s.setCmd c).host = s.host := rfl
@[simp] theorem setCmd_params (c : CmdReg) : (s.setCmd c).params = s.params := rfl
@[simp] theorem setCmd_card (c : CmdReg) : (s.setCmd c).card = s.card := rfl
@[simp] theorem setCmd_cmd (c : CmdReg) : (s.setCmd c).cmd = c := rfl
@[simp] theorem setCmd_payload (c : CmdReg) : (s.setCmd c).payload = s.payload := rfl
@[simp] theorem setCmd_control (c : CmdReg) : (s.setCmd c).control = s.control := rfl
@[simp] theorem setCmd_mem (c : CmdReg) : (s.setCmd c).mem = s.mem := rfl
@[simp] theorem setCmd_request (c : CmdReg) : (s.setCmd c).request = s.request := rfl
@[simp] theorem setCmd_callerDesc (c : CmdReg) : (s.setCmd c).callerDesc = s.callerDesc := rfl
@[simp] theorem setCmd_outcome (c : CmdReg) : (s.setCmd c).outcome = s.outcome := rfl
@[simp] theorem setCmd_trace (c : CmdReg) : (s.setCmd c).trace = s.trace := rfl
@[simp] theorem setCmd_env (c : CmdReg) : (s.setCmd c).env = s.env := rfl
@[simp] theorem setCmd_draws (c : CmdReg) : (s.setCmd c).draws = s.draws := rfl

@[simp] theorem setPayload_host (p : Option Payload) : (s.setPayload p).host = s.host := rfl
@[simp] theorem setPayload_params (p : Option Payload) : (s.setPayload p).params = s.params := rfl
@[simp] theorem setPayload_card (p : Option Payload) : (s.setPayload p).card = s.card := rfl
@[simp] theorem setPayload_cmd (p : Option Payload) : (s.setPayload p).cmd = s.cmd := rfl
@[simp] theorem setPayload_payload (p : Option Payload) : (s.setPayload p).payload = p := rfl
@[simp] theorem setPayload_control (p : Option Payload) : (s.setPayload p).control = s.control := rfl
@[simp] theorem setPayload_mem (p : Option Payload) : (s.setPayload p).mem = s.mem := rfl
@[simp] theorem setPayload_request (p : Option Payload) : (s.setPayload p).request = s.request := rfl
@[simp] theorem setPayload_callerDesc (p : Option Payload) : (s.setPayload p).callerDesc = s.callerDesc := rfl
@[simp] theorem setPayload_outcome (p : Option Payload) : (s.setPayload p).outcome = s.outcome := rfl
@[simp] theorem setPayload_trace (p : Option Payload) : (s.setPayload p).trace = s.trace := rfl
@[simp] theorem setPayload_env (p : Option Payload) : (s.setPayload p).env = s.env := rfl
@[simp] theorem setPayload_draws (p : Option Payload) : (s.setPayload p).draws = s.draws := rfl

@[simp] theorem setControl_host (c : Control) : (s.setControl c).host = s.host := rfl
@[simp] theorem setControl_params (c : Control) : (s.setControl c).params = s.params := rfl
@[simp] theorem setControl_card (c : Control) : (s.setControl c).card = s.card := rfl
@[simp] theorem setControl_cmd (c : Control) : (s.setControl c).cmd = s.cmd := rfl
@[simp] theorem setControl_payload (c : Control) : (s.setControl c).payload = s.payload := rfl
@[simp] theorem setControl_control (c : Control) : (s.setControl c).control = c := rfl
@[simp] theorem setControl_mem (c : Control) : (s.setControl c).mem = s.mem := rfl
@[simp] theorem setControl_request (c : Control) : (s.setControl c).request = s.request := rfl
@[simp] theorem setControl_callerDesc (c : Control) : (s.setControl c).callerDesc = s.callerDesc := rfl
@[simp] theorem setControl_outcome (c : Control) : (s.setControl c).outcome = s.outcome := rfl
@[simp] theorem setControl_trace (c : Control) : (s.setControl c).trace = s.trace := rfl
@[simp] theorem setControl_env (c : Control) : (s.setControl c).env = s.env := rfl
@[simp] theorem setControl_draws (c : Control) : (s.setControl c).draws = s.draws := rfl

@[simp] theorem setMem_host (m : Memory) : (s.setMem m).host = s.host := rfl
@[simp] theorem setMem_params (m : Memory) : (s.setMem m).params = s.params := rfl
@[simp] theorem setMem_card (m : Memory) : (s.setMem m).card = s.card := rfl
@[simp] theorem setMem_cmd (m : Memory) : (s.setMem m).cmd = s.cmd := rfl
@[simp] theorem setMem_payload (m : Memory) : (s.setMem m).payload = s.payload := rfl
@[simp] theorem setMem_control (m : Memory) : (s.setMem m).control = s.control := rfl
@[simp] theorem setMem_mem (m : Memory) : (s.setMem m).mem = m := rfl
@[simp] theorem setMem_request (m : Memory) : (s.setMem m).request = s.request := rfl
@[simp] theorem setMem_callerDesc (m : Memory) : (s.setMem m).callerDesc = s.callerDesc := rfl
@[simp] theorem setMem_outcome (m : Memory) : (s.setMem m).outcome = s.outcome := rfl
@[simp] theorem setMem_trace (m : Memory) : (s.setMem m).trace = s.trace := rfl
@[simp] theorem setMem_env (m : Memory) : (s.setMem m).env = s.env := rfl
@[simp] theorem setMem_draws (m : Memory) : (s.setMem m).draws = s.draws := rfl

@[simp] theorem setEnv_host (e : Environment) (n : Nat) : (s.setEnv e n).host = s.host := rfl
@[simp] theorem setEnv_params (e : Environment) (n : Nat) : (s.setEnv e n).params = s.params := rfl
@[simp] theorem setEnv_card (e : Environment) (n : Nat) : (s.setEnv e n).card = s.card := rfl
@[simp] theorem setEnv_cmd (e : Environment) (n : Nat) : (s.setEnv e n).cmd = s.cmd := rfl
@[simp] theorem setEnv_payload (e : Environment) (n : Nat) : (s.setEnv e n).payload = s.payload := rfl
@[simp] theorem setEnv_control (e : Environment) (n : Nat) : (s.setEnv e n).control = s.control := rfl
@[simp] theorem setEnv_mem (e : Environment) (n : Nat) : (s.setEnv e n).mem = s.mem := rfl
@[simp] theorem setEnv_request (e : Environment) (n : Nat) : (s.setEnv e n).request = s.request := rfl
@[simp] theorem setEnv_callerDesc (e : Environment) (n : Nat) : (s.setEnv e n).callerDesc = s.callerDesc := rfl
@[simp] theorem setEnv_outcome (e : Environment) (n : Nat) : (s.setEnv e n).outcome = s.outcome := rfl
@[simp] theorem setEnv_trace (e : Environment) (n : Nat) : (s.setEnv e n).trace = s.trace := rfl
@[simp] theorem setEnv_env (e : Environment) (n : Nat) : (s.setEnv e n).env = e := rfl
@[simp] theorem setEnv_draws (e : Environment) (n : Nat) : (s.setEnv e n).draws = s.draws + n := rfl

@[simp] theorem log_host (e : HostEvent) : (s.log e).host = s.host := rfl
@[simp] theorem log_params (e : HostEvent) : (s.log e).params = s.params := rfl
@[simp] theorem log_card (e : HostEvent) : (s.log e).card = s.card := rfl
@[simp] theorem log_cmd (e : HostEvent) : (s.log e).cmd = s.cmd := rfl
@[simp] theorem log_payload (e : HostEvent) : (s.log e).payload = s.payload := rfl
@[simp] theorem log_control (e : HostEvent) : (s.log e).control = s.control := rfl
@[simp] theorem log_mem (e : HostEvent) : (s.log e).mem = s.mem := rfl
@[simp] theorem log_request (e : HostEvent) : (s.log e).request = s.request := rfl
@[simp] theorem log_callerDesc (e : HostEvent) : (s.log e).callerDesc = s.callerDesc := rfl
@[simp] theorem log_outcome (e : HostEvent) : (s.log e).outcome = s.outcome := rfl
@[simp] theorem log_trace (e : HostEvent) : (s.log e).trace = e :: s.trace := rfl
@[simp] theorem log_env (e : HostEvent) : (s.log e).env = s.env := rfl
@[simp] theorem log_draws (e : HostEvent) : (s.log e).draws = s.draws := rfl

@[simp] theorem setMode_host (m : ModeName) : (s.setMode m).host = s.host := rfl
@[simp] theorem setMode_params (m : ModeName) : (s.setMode m).params = s.params := rfl
@[simp] theorem setMode_card (m : ModeName) : (s.setMode m).card = { s.card with mode := m.bits } := rfl
@[simp] theorem setMode_cmd (m : ModeName) : (s.setMode m).cmd = s.cmd := rfl
@[simp] theorem setMode_payload (m : ModeName) : (s.setMode m).payload = s.payload := rfl
@[simp] theorem setMode_control (m : ModeName) : (s.setMode m).control = s.control := rfl
@[simp] theorem setMode_mem (m : ModeName) : (s.setMode m).mem = s.mem := rfl
@[simp] theorem setMode_request (m : ModeName) : (s.setMode m).request = s.request := rfl
@[simp] theorem setMode_callerDesc (m : ModeName) : (s.setMode m).callerDesc = s.callerDesc := rfl
@[simp] theorem setMode_outcome (m : ModeName) : (s.setMode m).outcome = s.outcome := rfl
@[simp] theorem setMode_trace (m : ModeName) : (s.setMode m).trace = s.trace := rfl
@[simp] theorem setMode_env (m : ModeName) : (s.setMode m).env = s.env := rfl
@[simp] theorem setMode_draws (m : ModeName) : (s.setMode m).draws = s.draws := rfl

@[simp] theorem begin_host : s.begin.host = s.host := rfl
@[simp] theorem begin_params : s.begin.params = s.params := rfl
@[simp] theorem begin_card : s.begin.card = s.card := rfl
@[simp] theorem begin_cmd : s.begin.cmd = CmdReg.blank := rfl
@[simp] theorem begin_payload : s.begin.payload = none := rfl
@[simp] theorem begin_control : s.begin.control = s.control := rfl
@[simp] theorem begin_mem : s.begin.mem = s.mem := rfl
@[simp] theorem begin_request : s.begin.request = s.request := rfl
@[simp] theorem begin_callerDesc : s.begin.callerDesc = s.callerDesc := rfl
@[simp] theorem begin_outcome : s.begin.outcome = none := rfl
@[simp] theorem begin_trace : s.begin.trace = [] := rfl
@[simp] theorem begin_env : s.begin.env = s.env := rfl
@[simp] theorem begin_draws : s.begin.draws = s.draws := rfl

@[simp] theorem finish_host (ok : Bool) (code : Option Result) : (s.finish ok code).host = s.host := rfl
@[simp] theorem finish_params (ok : Bool) (code : Option Result) : (s.finish ok code).params = s.params := rfl
@[simp] theorem finish_card (ok : Bool) (code : Option Result) : (s.finish ok code).card = s.card := rfl
@[simp] theorem finish_cmd (ok : Bool) (code : Option Result) : (s.finish ok code).cmd = CmdReg.blank := rfl
@[simp] theorem finish_payload (ok : Bool) (code : Option Result) : (s.finish ok code).payload = none := rfl
@[simp] theorem finish_control (ok : Bool) (code : Option Result) : (s.finish ok code).control = .idle := rfl
@[simp] theorem finish_mem (ok : Bool) (code : Option Result) : (s.finish ok code).mem = s.mem := rfl
@[simp] theorem finish_request (ok : Bool) (code : Option Result) : (s.finish ok code).request = s.request := rfl
@[simp] theorem finish_callerDesc (ok : Bool) (code : Option Result) : (s.finish ok code).callerDesc = none := rfl
@[simp] theorem finish_outcome (ok : Bool) (code : Option Result) : (s.finish ok code).outcome = some ⟨ok, code, none⟩ := rfl
@[simp] theorem finish_trace (ok : Bool) (code : Option Result) : (s.finish ok code).trace = s.trace := rfl
@[simp] theorem finish_env (ok : Bool) (code : Option Result) : (s.finish ok code).env = s.env := rfl
@[simp] theorem finish_draws (ok : Bool) (code : Option Result) : (s.finish ok code).draws = s.draws := rfl

@[simp] theorem finishCode_host (r : Result) : (s.finishCode r).host = s.host := rfl
@[simp] theorem finishCode_params (r : Result) : (s.finishCode r).params = s.params := rfl
@[simp] theorem finishCode_card (r : Result) : (s.finishCode r).card = s.card := rfl
@[simp] theorem finishCode_cmd (r : Result) : (s.finishCode r).cmd = CmdReg.blank := rfl
@[simp] theorem finishCode_payload (r : Result) : (s.finishCode r).payload = none := rfl
@[simp] theorem finishCode_control (r : Result) : (s.finishCode r).control = .idle := rfl
@[simp] theorem finishCode_mem (r : Result) : (s.finishCode r).mem = s.mem := rfl
@[simp] theorem finishCode_request (r : Result) : (s.finishCode r).request = s.request := rfl
@[simp] theorem finishCode_callerDesc (r : Result) : (s.finishCode r).callerDesc = none := rfl
@[simp] theorem finishCode_outcome (r : Result) : (s.finishCode r).outcome = some ⟨decide (r = .well), some r, none⟩ := rfl
@[simp] theorem finishCode_trace (r : Result) : (s.finishCode r).trace = s.trace := rfl
@[simp] theorem finishCode_env (r : Result) : (s.finishCode r).env = s.env := rfl
@[simp] theorem finishCode_draws (r : Result) : (s.finishCode r).draws = s.draws := rfl

@[simp] theorem goto_host (p : Point) (K : List Frame) : (s.goto p K).host = s.host := rfl
@[simp] theorem goto_params (p : Point) (K : List Frame) : (s.goto p K).params = s.params := rfl
@[simp] theorem goto_card (p : Point) (K : List Frame) : (s.goto p K).card = s.card := rfl
@[simp] theorem goto_cmd (p : Point) (K : List Frame) : (s.goto p K).cmd = s.cmd := rfl
@[simp] theorem goto_payload (p : Point) (K : List Frame) : (s.goto p K).payload = s.payload := rfl
@[simp] theorem goto_mem (p : Point) (K : List Frame) : (s.goto p K).mem = s.mem := rfl
@[simp] theorem goto_request (p : Point) (K : List Frame) : (s.goto p K).request = s.request := rfl
@[simp] theorem goto_callerDesc (p : Point) (K : List Frame) : (s.goto p K).callerDesc = s.callerDesc := rfl
@[simp] theorem goto_outcome (p : Point) (K : List Frame) : (s.goto p K).outcome = s.outcome := rfl
@[simp] theorem goto_trace (p : Point) (K : List Frame) : (s.goto p K).trace = s.trace := rfl
@[simp] theorem goto_env (p : Point) (K : List Frame) : (s.goto p K).env = s.env := rfl
@[simp] theorem goto_draws (p : Point) (K : List Frame) : (s.goto p K).draws = s.draws := rfl
@[simp] theorem goto_control (p : Point) (K : List Frame) : (s.goto p K).control = .running p K := rfl

@[simp] theorem giveBack_host (r : Result) (K : List Frame) : (s.giveBack r K).host = s.host := rfl
@[simp] theorem giveBack_params (r : Result) (K : List Frame) : (s.giveBack r K).params = s.params := rfl
@[simp] theorem giveBack_card (r : Result) (K : List Frame) : (s.giveBack r K).card = s.card := rfl
@[simp] theorem giveBack_cmd (r : Result) (K : List Frame) : (s.giveBack r K).cmd = s.cmd := rfl
@[simp] theorem giveBack_payload (r : Result) (K : List Frame) : (s.giveBack r K).payload = s.payload := rfl
@[simp] theorem giveBack_mem (r : Result) (K : List Frame) : (s.giveBack r K).mem = s.mem := rfl
@[simp] theorem giveBack_request (r : Result) (K : List Frame) : (s.giveBack r K).request = s.request := rfl
@[simp] theorem giveBack_callerDesc (r : Result) (K : List Frame) : (s.giveBack r K).callerDesc = s.callerDesc := rfl
@[simp] theorem giveBack_outcome (r : Result) (K : List Frame) : (s.giveBack r K).outcome = s.outcome := rfl
@[simp] theorem giveBack_trace (r : Result) (K : List Frame) : (s.giveBack r K).trace = s.trace := rfl
@[simp] theorem giveBack_env (r : Result) (K : List Frame) : (s.giveBack r K).env = s.env := rfl
@[simp] theorem giveBack_draws (r : Result) (K : List Frame) : (s.giveBack r K).draws = s.draws := rfl
@[simp] theorem giveBack_control (r : Result) (K : List Frame) : (s.giveBack r K).control = .running (.returned r) K := rfl

@[simp] theorem endWith_host (ok : Bool) (code : Option Result) (K : List Frame) : (s.endWith ok code K).host = s.host := rfl
@[simp] theorem endWith_params (ok : Bool) (code : Option Result) (K : List Frame) : (s.endWith ok code K).params = s.params := rfl
@[simp] theorem endWith_card (ok : Bool) (code : Option Result) (K : List Frame) : (s.endWith ok code K).card = s.card := rfl
@[simp] theorem endWith_cmd (ok : Bool) (code : Option Result) (K : List Frame) : (s.endWith ok code K).cmd = s.cmd := rfl
@[simp] theorem endWith_payload (ok : Bool) (code : Option Result) (K : List Frame) : (s.endWith ok code K).payload = s.payload := rfl
@[simp] theorem endWith_mem (ok : Bool) (code : Option Result) (K : List Frame) : (s.endWith ok code K).mem = s.mem := rfl
@[simp] theorem endWith_request (ok : Bool) (code : Option Result) (K : List Frame) : (s.endWith ok code K).request = s.request := rfl
@[simp] theorem endWith_callerDesc (ok : Bool) (code : Option Result) (K : List Frame) : (s.endWith ok code K).callerDesc = s.callerDesc := rfl
@[simp] theorem endWith_outcome (ok : Bool) (code : Option Result) (K : List Frame) : (s.endWith ok code K).outcome = s.outcome := rfl
@[simp] theorem endWith_trace (ok : Bool) (code : Option Result) (K : List Frame) : (s.endWith ok code K).trace = s.trace := rfl
@[simp] theorem endWith_env (ok : Bool) (code : Option Result) (K : List Frame) : (s.endWith ok code K).env = s.env := rfl
@[simp] theorem endWith_draws (ok : Bool) (code : Option Result) (K : List Frame) : (s.endWith ok code K).draws = s.draws := rfl
@[simp] theorem endWith_control (ok : Bool) (code : Option Result) (K : List Frame) : (s.endWith ok code K).control = .running (.ended ok code) K := rfl

@[simp] theorem takeRequest_host (r : Request) : (s.takeRequest r).host = s.host := rfl
@[simp] theorem takeRequest_params (r : Request) : (s.takeRequest r).params = s.params := rfl
@[simp] theorem takeRequest_card (r : Request) : (s.takeRequest r).card = s.card := rfl
@[simp] theorem takeRequest_cmd (r : Request) : (s.takeRequest r).cmd = s.cmd := rfl
@[simp] theorem takeRequest_payload (r : Request) : (s.takeRequest r).payload = s.payload := rfl
@[simp] theorem takeRequest_control (r : Request) : (s.takeRequest r).control = s.control := rfl
@[simp] theorem takeRequest_mem (r : Request) : (s.takeRequest r).mem = s.mem := rfl
@[simp] theorem takeRequest_request (r : Request) : (s.takeRequest r).request = none := rfl
@[simp] theorem takeRequest_callerDesc (r : Request) : (s.takeRequest r).callerDesc = r.desc := rfl
@[simp] theorem takeRequest_outcome (r : Request) : (s.takeRequest r).outcome = s.outcome := rfl
@[simp] theorem takeRequest_trace (r : Request) : (s.takeRequest r).trace = s.trace := rfl
@[simp] theorem takeRequest_env (r : Request) : (s.takeRequest r).env = s.env := rfl
@[simp] theorem takeRequest_draws (r : Request) : (s.takeRequest r).draws = s.draws := rfl

theorem takeSendCommand_eq : s.takeSendCommand = s.setEnv { s.env with sendCommands := s.env.sendCommands.tail } (drawCount s.env.sendCommands) := rfl
theorem takeResponse_eq : s.takeResponse = s.setEnv { s.env with responses := s.env.responses.tail } (drawCount s.env.responses) := rfl
theorem takeSendData_eq : s.takeSendData = s.setEnv { s.env with sendDatas := s.env.sendDatas.tail } (drawCount s.env.sendDatas) := rfl
theorem takeInserted_eq : s.takeInserted = s.setEnv { s.env with inserted := s.env.inserted.tail } (drawCount s.env.inserted) := rfl
theorem takeActivated_eq : s.takeActivated = s.setEnv { s.env with activated := s.env.activated.tail } (drawCount s.env.activated) := rfl
theorem takeVoltage_eq : s.takeVoltage = s.setEnv { s.env with voltages := s.env.voltages.tail } (drawCount s.env.voltages) := rfl
theorem takeFraming_eq : s.takeFraming = s.setEnv { s.env with framings := s.env.framings.tail } (drawCount s.env.framings) := rfl
theorem takeAcquisition_eq : s.takeAcquisition = s.setEnv { s.env with acquisitions := s.env.acquisitions.tail } (drawCount s.env.acquisitions) := rfl
theorem takeRecvData_eq (n : Nat) :
    s.takeRecvData n = s.setEnv { s.env with recvDatas := s.env.recvDatas.tail } (drawCount s.env.recvDatas + n) := rfl

@[simp] theorem takeSendCommand_host : s.takeSendCommand.host = s.host := rfl
@[simp] theorem takeSendCommand_params : s.takeSendCommand.params = s.params := rfl
@[simp] theorem takeSendCommand_card : s.takeSendCommand.card = s.card := rfl
@[simp] theorem takeSendCommand_cmd : s.takeSendCommand.cmd = s.cmd := rfl
@[simp] theorem takeSendCommand_payload : s.takeSendCommand.payload = s.payload := rfl
@[simp] theorem takeSendCommand_control : s.takeSendCommand.control = s.control := rfl
@[simp] theorem takeSendCommand_mem : s.takeSendCommand.mem = s.mem := rfl
@[simp] theorem takeSendCommand_request : s.takeSendCommand.request = s.request := rfl
@[simp] theorem takeSendCommand_callerDesc : s.takeSendCommand.callerDesc = s.callerDesc := rfl
@[simp] theorem takeSendCommand_outcome : s.takeSendCommand.outcome = s.outcome := rfl
@[simp] theorem takeSendCommand_trace : s.takeSendCommand.trace = s.trace := rfl

@[simp] theorem takeResponse_host : s.takeResponse.host = s.host := rfl
@[simp] theorem takeResponse_params : s.takeResponse.params = s.params := rfl
@[simp] theorem takeResponse_card : s.takeResponse.card = s.card := rfl
@[simp] theorem takeResponse_cmd : s.takeResponse.cmd = s.cmd := rfl
@[simp] theorem takeResponse_payload : s.takeResponse.payload = s.payload := rfl
@[simp] theorem takeResponse_control : s.takeResponse.control = s.control := rfl
@[simp] theorem takeResponse_mem : s.takeResponse.mem = s.mem := rfl
@[simp] theorem takeResponse_request : s.takeResponse.request = s.request := rfl
@[simp] theorem takeResponse_callerDesc : s.takeResponse.callerDesc = s.callerDesc := rfl
@[simp] theorem takeResponse_outcome : s.takeResponse.outcome = s.outcome := rfl
@[simp] theorem takeResponse_trace : s.takeResponse.trace = s.trace := rfl

@[simp] theorem takeSendData_host : s.takeSendData.host = s.host := rfl
@[simp] theorem takeSendData_params : s.takeSendData.params = s.params := rfl
@[simp] theorem takeSendData_card : s.takeSendData.card = s.card := rfl
@[simp] theorem takeSendData_cmd : s.takeSendData.cmd = s.cmd := rfl
@[simp] theorem takeSendData_payload : s.takeSendData.payload = s.payload := rfl
@[simp] theorem takeSendData_control : s.takeSendData.control = s.control := rfl
@[simp] theorem takeSendData_mem : s.takeSendData.mem = s.mem := rfl
@[simp] theorem takeSendData_request : s.takeSendData.request = s.request := rfl
@[simp] theorem takeSendData_callerDesc : s.takeSendData.callerDesc = s.callerDesc := rfl
@[simp] theorem takeSendData_outcome : s.takeSendData.outcome = s.outcome := rfl
@[simp] theorem takeSendData_trace : s.takeSendData.trace = s.trace := rfl

@[simp] theorem takeInserted_host : s.takeInserted.host = s.host := rfl
@[simp] theorem takeInserted_params : s.takeInserted.params = s.params := rfl
@[simp] theorem takeInserted_card : s.takeInserted.card = s.card := rfl
@[simp] theorem takeInserted_cmd : s.takeInserted.cmd = s.cmd := rfl
@[simp] theorem takeInserted_payload : s.takeInserted.payload = s.payload := rfl
@[simp] theorem takeInserted_control : s.takeInserted.control = s.control := rfl
@[simp] theorem takeInserted_mem : s.takeInserted.mem = s.mem := rfl
@[simp] theorem takeInserted_request : s.takeInserted.request = s.request := rfl
@[simp] theorem takeInserted_callerDesc : s.takeInserted.callerDesc = s.callerDesc := rfl
@[simp] theorem takeInserted_outcome : s.takeInserted.outcome = s.outcome := rfl
@[simp] theorem takeInserted_trace : s.takeInserted.trace = s.trace := rfl

@[simp] theorem takeActivated_host : s.takeActivated.host = s.host := rfl
@[simp] theorem takeActivated_params : s.takeActivated.params = s.params := rfl
@[simp] theorem takeActivated_card : s.takeActivated.card = s.card := rfl
@[simp] theorem takeActivated_cmd : s.takeActivated.cmd = s.cmd := rfl
@[simp] theorem takeActivated_payload : s.takeActivated.payload = s.payload := rfl
@[simp] theorem takeActivated_control : s.takeActivated.control = s.control := rfl
@[simp] theorem takeActivated_mem : s.takeActivated.mem = s.mem := rfl
@[simp] theorem takeActivated_request : s.takeActivated.request = s.request := rfl
@[simp] theorem takeActivated_callerDesc : s.takeActivated.callerDesc = s.callerDesc := rfl
@[simp] theorem takeActivated_outcome : s.takeActivated.outcome = s.outcome := rfl
@[simp] theorem takeActivated_trace : s.takeActivated.trace = s.trace := rfl

@[simp] theorem takeVoltage_host : s.takeVoltage.host = s.host := rfl
@[simp] theorem takeVoltage_params : s.takeVoltage.params = s.params := rfl
@[simp] theorem takeVoltage_card : s.takeVoltage.card = s.card := rfl
@[simp] theorem takeVoltage_cmd : s.takeVoltage.cmd = s.cmd := rfl
@[simp] theorem takeVoltage_payload : s.takeVoltage.payload = s.payload := rfl
@[simp] theorem takeVoltage_control : s.takeVoltage.control = s.control := rfl
@[simp] theorem takeVoltage_mem : s.takeVoltage.mem = s.mem := rfl
@[simp] theorem takeVoltage_request : s.takeVoltage.request = s.request := rfl
@[simp] theorem takeVoltage_callerDesc : s.takeVoltage.callerDesc = s.callerDesc := rfl
@[simp] theorem takeVoltage_outcome : s.takeVoltage.outcome = s.outcome := rfl
@[simp] theorem takeVoltage_trace : s.takeVoltage.trace = s.trace := rfl

@[simp] theorem takeFraming_host : s.takeFraming.host = s.host := rfl
@[simp] theorem takeFraming_params : s.takeFraming.params = s.params := rfl
@[simp] theorem takeFraming_card : s.takeFraming.card = s.card := rfl
@[simp] theorem takeFraming_cmd : s.takeFraming.cmd = s.cmd := rfl
@[simp] theorem takeFraming_payload : s.takeFraming.payload = s.payload := rfl
@[simp] theorem takeFraming_control : s.takeFraming.control = s.control := rfl
@[simp] theorem takeFraming_mem : s.takeFraming.mem = s.mem := rfl
@[simp] theorem takeFraming_request : s.takeFraming.request = s.request := rfl
@[simp] theorem takeFraming_callerDesc : s.takeFraming.callerDesc = s.callerDesc := rfl
@[simp] theorem takeFraming_outcome : s.takeFraming.outcome = s.outcome := rfl
@[simp] theorem takeFraming_trace : s.takeFraming.trace = s.trace := rfl

@[simp] theorem takeAcquisition_host : s.takeAcquisition.host = s.host := rfl
@[simp] theorem takeAcquisition_params : s.takeAcquisition.params = s.params := rfl
@[simp] theorem takeAcquisition_card : s.takeAcquisition.card = s.card := rfl
@[simp] theorem takeAcquisition_cmd : s.takeAcquisition.cmd = s.cmd := rfl
@[simp] theorem takeAcquisition_payload : s.takeAcquisition.payload = s.payload := rfl
@[simp] theorem takeAcquisition_control : s.takeAcquisition.control = s.control := rfl
@[simp] theorem takeAcquisition_mem : s.takeAcquisition.mem = s.mem := rfl
@[simp] theorem takeAcquisition_request : s.takeAcquisition.request = s.request := rfl
@[simp] theorem takeAcquisition_callerDesc : s.takeAcquisition.callerDesc = s.callerDesc := rfl
@[simp] theorem takeAcquisition_outcome : s.takeAcquisition.outcome = s.outcome := rfl
@[simp] theorem takeAcquisition_trace : s.takeAcquisition.trace = s.trace := rfl

@[simp] theorem takeRecvData_host (n : Nat) : (s.takeRecvData n).host = s.host := rfl
@[simp] theorem takeRecvData_params (n : Nat) : (s.takeRecvData n).params = s.params := rfl
@[simp] theorem takeRecvData_card (n : Nat) : (s.takeRecvData n).card = s.card := rfl
@[simp] theorem takeRecvData_cmd (n : Nat) : (s.takeRecvData n).cmd = s.cmd := rfl
@[simp] theorem takeRecvData_payload (n : Nat) : (s.takeRecvData n).payload = s.payload := rfl
@[simp] theorem takeRecvData_control (n : Nat) : (s.takeRecvData n).control = s.control := rfl
@[simp] theorem takeRecvData_mem (n : Nat) : (s.takeRecvData n).mem = s.mem := rfl
@[simp] theorem takeRecvData_request (n : Nat) : (s.takeRecvData n).request = s.request := rfl
@[simp] theorem takeRecvData_callerDesc (n : Nat) : (s.takeRecvData n).callerDesc = s.callerDesc := rfl
@[simp] theorem takeRecvData_outcome (n : Nat) : (s.takeRecvData n).outcome = s.outcome := rfl
@[simp] theorem takeRecvData_trace (n : Nat) : (s.takeRecvData n).trace = s.trace := rfl

end Sys2Proof.Machine
end

