-- ==== Sys2Proof/Laws/Summary.lean ====
section
/-! SUPPORT. Each controller of files 42 and 43, the attempt of file 44 and the call sequences of file 45 as ONE function from its
call to its return. `Laws/Steps.lean` proves that the block's steps lead from a call of the controller to exactly this return;
the proofs about whole requests are made here, where no control point stands in the way. -/

namespace Sys2Proof.Machine

/-! ## The exchange (R14) -/

/-- `frame(cmd)` (R164). -/
def frame (s : State) : State :=
  match s.host.framing with
  | .coreCRC7 => s.setCmd s.cmd.framed
  | .hostOverride => hostAddFraming s

/-- `exchange(cmd)` (R14). -/
def exchange (c : CmdReg) (s : State) : State × Result :=
  let p := hostSendCommand (frame (s.setCmd c))
  if p.2 ≠ .well then p
  else if c.responseType = .none then p
  else (hostRecvResponse p.1, .well)

/-- `try` (R13): go on after `Well`, pass any other result up unchanged (R322). -/
def tryThen (p : State × Result) (k : State → State × Result) : State × Result :=
  if p.2 = .well then k p.1 else p

/-- `check_r1(cmd)` (R185). -/
def checkR1 (s : State) : State × Result :=
  if r1Ok s.resp0 then (s, .well) else (s, .anyError)

/-- `release()`. -/
def release (p : State × Result) : State × Result := (p.1.setPayload none, p.2)

/-! ## Identification -/

/-- R181. -/
def goIdle (s : State) : State × Result :=
  let c := newCmd 0#6 0#32 .none
  let drained := hostRecvResponse (s.setCmd c)
  tryThen (exchange c drained) fun s =>
  ((s.setMode .idle).setCard { (s.setMode .idle).card with rca := 0#16 }, .well)

/-- One attempt of R182. -/
def sendIfCondAttempt (s : State) : State × Result :=
  tryThen (exchange (newCmd 8#6 cmd8Arg .r7) s) fun s =>
  if r7Ok s.resp0 then (s, .well) else (s, .checkErr)

/-- R183. -/
def appCmdPrefix (s : State) : State × Result :=
  tryThen (exchange (newCmd 55#6 s.card.rcaArg .r1) s) fun s =>
  if r1Ok s.resp0 = false then (s, .anyError)
  else if appCmdSet s.resp0 = false then (s, .notSupported)
  else (s, .well)

/-- R184. -/
def sendOpCond (a : Word) (s : State) : State × Result :=
  tryThen (appCmdPrefix s) fun s =>
  tryThen (exchange (newCmd 41#6 (acmd41Sent a) .r3) s) fun s =>
  if ocrPoweredUp s.resp0 = false then (s, .retry)
  else (s.setCard { s.card with ocr := s.resp0 }, .well)

/-- R186, R191. -/
def readCid (c : CmdReg) (s : State) : State × Result :=
  tryThen (exchange c s) fun s =>
  (s.setCard { s.card with cid := registerOfWords s.cmd.response, cidValid := true }, .well)

/-- R186. -/
def allSendCid (s : State) : State × Result := readCid (newCmd 2#6 0#32 .r2) s

/-- R191. -/
def sendCid (s : State) : State × Result := readCid (newCmd 10#6 s.card.rcaArg .r2) s

/-- R187. -/
def issueRca (s : State) : State × Result :=
  tryThen (exchange (newCmd 3#6 0#32 .r6) s) fun s =>
  if r6Ok s.resp0 = false then (s, .anyError)
  else (s.setCard { s.card with rca := r6Rca s.resp0 }, .well)

/-- R194. -/
def switchVoltage (s : State) : State × Result :=
  if voltageSwitchAllowed s = false then (s, .notSupported)
  else
    tryThen (exchange (newCmd 11#6 0#32 .r1) s) fun s =>
    tryThen (checkR1 s) fun s =>
    tryThen (hostSwitchVoltage s) fun s =>
    (s.setCard { s.card with voltage := 1#1 }, .well)

/-! ## Register reads -/

/-- R188. -/
def getCsd (s : State) : State × Result :=
  tryThen (exchange (newCmd 9#6 s.card.rcaArg .r2) s) fun s =>
  let reg := registerOfWords s.cmd.response
  match csdFields reg with
  | none => (s, .notSupported)
  | some f => (s.setCard ({ s.card with csd := reg, csdValid := true }.withGeometry f.geometry), .well)

/-- R189 once the payload is acquired. -/
def getScrAcquired (s : State) : State × Result :=
  let d := payloadDescriptor scrLen
  tryThen (appCmdPrefix s) fun s =>
  tryThen (exchange (newDataCmd 51#6 0#32 .r1 (some d)) s) fun s =>
  tryThen (checkR1 s) fun s =>
  tryThen (hostRecvData d s) fun s =>
  let scr := assembleScr s.payloadBytes
  (s.setCard { s.card with scr := scr, scrValid := true, version := versionOf scr }, .well)

/-- R189. -/
def getScr (s : State) : State × Result :=
  let p := acquire 8 s
  if p.2 = false then (p.1, .memErr) else release (getScrAcquired p.1)

/-! ## Selection and status -/

/-- R190. -/
def selectCard (sel : Bool) (s : State) : State × Result :=
  let a := selectArg s.card sel
  let t := selectResponse a
  tryThen (exchange (newCmd 7#6 a t) s) fun s =>
  if t = .r1 then checkR1 s else (s, .well)

/-- R192. -/
def getStatus (s : State) : State × Result :=
  tryThen (exchange (newCmd 13#6 s.card.rcaArg .r1) s) fun s =>
  if r1Ok s.resp0 = false then (s, .anyError)
  else if s.resp0.getLsbD 8 = false ∨ isProgramming s.resp0 = true then (s, .notReady)
  else (s, .well)

/-- R193. -/
def stopTransmission (s : State) : State × Result :=
  let p := exchange (newCmd 12#6 0#32 .r1b) s
  if p.2 ≠ .well then (p.1, .transStopFail)
  else if r1Ok p.1.resp0 = false then (p.1, .transStopFail)
  else (p.1, .well)

/-- R195. -/
def goInactive (s : State) : State × Result :=
  tryThen (exchange (newCmd 15#6 s.card.rcaArg .none) s) fun s =>
  (s.setMode .inactive, .well)

/-! ## Bus configuration and negotiation -/

/-- An exchange and the check of its R1 (R185). -/
def checkedExchange (c : CmdReg) (s : State) : State × Result :=
  tryThen (exchange c s) checkR1

/-- R196. -/
def setBlockLength (len : Word) (s : State) : State × Result := checkedExchange (newCmd 16#6 len .r1) s

/-- R211. -/
def setBusWidth (width : Nat) (s : State) : State × Result :=
  if width ≠ 1 ∧ width ≠ 4 then (s, .argFault)
  else
    tryThen (appCmdPrefix s) fun s =>
    checkedExchange (newCmd 6#6 (acmd6Arg width) .r1) s

/-- R199 once the payload is acquired. -/
def selectFunctionAcquired (mode : SwitchMode) (g i : Nat) (s : State) : State × Result :=
  let d := payloadDescriptor switchBlockLen
  tryThen (exchange (newDataCmd 6#6 (cmd6Arg mode g i) .r1 (some d)) s) fun s =>
  tryThen (checkR1 s) fun s =>
  tryThen (hostRecvData d s) fun s =>
  (s.setCard (s.card.withSwitchStatus s.payloadBytes), .well)

/-- R199. -/
def selectFunction (mode : SwitchMode) (g i : Nat) (s : State) : State × Result :=
  if g < 1 ∨ 6 < g ∨ 15 < i then (s, .argFault)
  else
    let p := acquire 64 s
    if p.2 = false then (p.1, .memErr) else release (selectFunctionAcquired mode g i p.1)

/-- R240. -/
def negotiate (g i : Nat) (s : State) : State × Result :=
  tryThen (setBlockLength switchBlockLen s) fun s =>
  tryThen (selectFunction .check g i s) fun s =>
  if checkAccepted s.card g i = false then (s, .notSupported)
  else
    tryThen (setBlockLength switchBlockLen s) fun s =>
    tryThen (selectFunction .switch g i s) fun s =>
    if switchAccepted s.card g i = false then (s, .notSupported) else (s, .well)

/-! ## The engine -/

/-- The command phase of R264, R265. -/
def dataCommand (dir : Direction) (n : Nat) (addr : Word) (d : Descriptor) (s : State) : State × Result :=
  checkedExchange (newDataCmd (dataIndex dir n) addr .r1 (some d)) s

/-- R267. -/
def stopAfter (n : Nat) (s : State) : State × Result :=
  if 1 < n ∧ s.host.autoCmd12 = false then stopTransmission s else (s, .well)

/-- How an attempt ends (R264): `DataFail`, the internal marker that is retried, or a result. -/
inductive Attempt where
  | dataFail
  | done (r : Result)
  deriving DecidableEq, Repr

/-- R264, R265 after the status poll. -/
def attempt (cur : Cursor) (n : Nat) (s : State) : State × Attempt :=
  let d := blockDescriptor s cur.dir cur.buffer n
  let c := dataCommand cur.dir n (s.card.address cur.block) d s
  if c.2 ≠ .well then (c.1, .done c.2)
  else
    let p := dataPhase cur.dir d c.1
    let q := stopAfter n p.1
    if p.2 ≠ .well then (q.1, .dataFail) else (q.1, .done q.2)

/-- The three commands of an erase chunk of `n` blocks from `block` (R268). -/
def eraseCommands (block n : Nat) (s : State) : State × Result :=
  tryThen (checkedExchange (newCmd 32#6 (s.card.address block) .r1) s) fun s =>
  tryThen (checkedExchange (newCmd 33#6 (s.card.address (block + n - 1)) .r1) s) fun s =>
  checkedExchange (newCmd 38#6 0#32 .r1b) s

/-! ## The lifecycle -/

/-- A negotiation inside `to_normal` (R294, R298): a tolerated result goes on as `Well`. -/
def negotiateTolerated (g i : Nat) (s : State) : State × Result :=
  let p := negotiate g i s
  if tolerated p.2 then (p.1, .well) else p

/-- The high-speed negotiation of R294, when the version allows CMD6. -/
def negotiateHighSpeed (s : State) : State × Result :=
  if cmd6Allowed s.card then negotiateTolerated 1 1 s else (s, .well)

/-- The driver-strength and power-limit negotiations of R294, when the version allows CMD6. -/
def negotiateDefaults (s : State) : State × Result :=
  if cmd6Allowed s.card then
    tryThen (negotiateTolerated 3 0 s) fun s => negotiateTolerated 4 0 s
  else (s, .well)

/-- The sequence of `to_normal` (R294) up to `mode <- Transfer`; the first failure ends it. -/
def toNormalSequence (s : State) : State × Result :=
  tryThen (getCsd s) fun s =>
  tryThen (selectCard true s) fun s =>
  tryThen (getScr s) fun s =>
  tryThen (negotiateHighSpeed s) fun s =>
  tryThen (negotiateDefaults (hostSetClockFrequency .f25M s)) fun s =>
  tryThen (setBlockLength blockLen s) fun s =>
  ((s.setCard s.card.fixBlockSize).setMode .transfer, .well)

/-- R291 step 7: the optional 1.8 V switch. -/
def detectVoltage (s : State) : State × Result :=
  if s.host.supports1V8 && ocrS18A s.card.ocr then switchVoltage s else (s, .well)

/-- R291 steps 7 and 8. -/
def identify (s : State) : State × Result :=
  tryThen (detectVoltage s) fun s =>
  tryThen (allSendCid s) fun s =>
  tryThen (issueRca (s.setMode .identify)) fun s =>
  (s.setMode .standBy, .well)

/-- The body of `inactivate_device` (R303). -/
def inactivate (s : State) : State :=
  (goIdle (selectCard false (hostSetBusWidth .one s)).1).1.setMode .inactive

/-- `to_normal` after its sequence (R294, R297): true, or the deselect and false. -/
def toNormalReturn (p : State × Result) (K : List Frame) : State :=
  if p.2 = .well then p.1.endWith true (some .well) K
  else
    let d := (selectCard false p.1).1
    (if d.card.inMode .transfer then d.setMode .standBy else d).endWith false (some p.2) K

/-- `detect` after its last steps (R291). -/
def identifyReturn (p : State × Result) (K : List Frame) : State :=
  if p.2 = .well then p.1.endWith true (some .well) K else p.1.endWith false (some p.2) K

/-- After an iteration of the ACMD41 loop (R293). -/
def opCondReturn (v2 : Bool) (k : Nat) (p : State × Result) (K : List Frame) : State :=
  match p.2 with
  | .well => identifyReturn (identify (p.1.setMode .ready)) K
  | .retry => p.1.goto (.opCondIteration v2 (k + 1)) K
  | r => p.1.endWith false (some r) K

/-- After an attempt of CMD8 (R182). -/
def ifCondReturn (k : Nat) (p : State × Result) (K : List Frame) : State :=
  if p.2 = .well then p.1.giveBack .well K else p.1.goto (.ifCondAttempt (k + 1) p.2) K

/-- After an attempt (R262, R266): retry, go on with the next transaction, or return. -/
def attemptReturn (cur : Cursor) (n : Nat) (p : State × Attempt) (K : List Frame) : State :=
  match p.2 with
  | .dataFail =>
    if cur.retry < p.1.params.dataRetry then p.1.goto (.statusPoll { cur with retry := cur.retry + 1, polls := 0 }) K
    else p.1.endWith false (some (dataFailCode cur.dir)) K
  | .done r =>
    if r ≠ .well then p.1.endWith false (some r) K
    else if cur.remaining ≤ n then p.1.endWith true (some .well) K
    else p.1.goto (.statusPoll (cur.advance n p.1.card.blockSize)) K

/-- After a status poll (R263). -/
def pollReturn (cur : Cursor) (p : State × Result) (K : List Frame) : State :=
  match p.2 with
  | .well => attemptReturn cur (cur.blocks p.1) (attempt cur (cur.blocks p.1) p.1) K
  | .notReady =>
    if limitReached p.1.params.statusPollLimit (cur.polls + 1) then p.1.endWith false (some .timeout) K
    else p.1.goto (.statusPoll { cur with polls := cur.polls + 1 }) K
  | r => p.1.endWith false (some r) K

/-- After the commands of an erase chunk (R268). -/
def eraseReturn (block remaining n : Nat) (p : State × Result) (K : List Frame) : State :=
  if p.2 ≠ .well then p.1.endWith false (some p.2) K
  else if remaining ≤ n then p.1.endWith true (some .well) K
  else p.1.goto (.eraseChunk (block + n) (remaining - n)) K

end Sys2Proof.Machine
end

