-- ==== Sys2Proof/Laws/Memory.lean ====
section
/-! SUPPORT. System memory: every operation keeps the canonical form, and a read after a write reads what was written at that
address and what was there before at every other. -/

namespace Sys2Proof.Machine

theorem read_write_same (m : Memory) (a : Nat) (b : Byte) (h : m.wf = true) : (m.write a b).read a = b := by
  induction m with
  | nil => by_cases hb : b = unlistedByte <;> simp [Memory.write, Memory.read, hb]
  | cons c rest ih =>
    obtain ⟨k, v⟩ := c
    simp only [Memory.wf, Bool.and_eq_true, List.all_eq_true, decide_eq_true_eq] at h
    obtain ⟨⟨_, hlt⟩, hrest⟩ := h
    have absent : ∀ (l : Memory), (∀ x ∈ l, a < x.1) → Memory.read l a = unlistedByte := by
      intro l hl
      induction l with
      | nil => rfl
      | cons x xs ihx =>
        have hx := hl x (by simp)
        simp only [Memory.read]
        rw [if_neg (by omega)]
        exact ihx fun y hy => hl y (by simp [hy])
    simp only [Memory.write]
    by_cases h1 : a < k
    · by_cases hb : b = unlistedByte
      · rw [if_pos h1, if_pos hb, hb]
        refine absent _ ?_
        intro x hx
        rcases List.mem_cons.1 hx with rfl | hx
        · exact h1
        · exact lt_trans h1 (hlt x hx)
      · simp [h1, hb, Memory.read]
    · by_cases h2 : a = k
      · subst h2
        by_cases hb : b = unlistedByte
        · rw [if_neg h1, if_pos rfl, if_pos hb, hb]
          exact absent _ hlt
        · simp [hb, Memory.read]
      · rw [if_neg h1, if_neg h2]
        simp only [Memory.read]
        rw [if_neg (Ne.symm h2)]
        exact ih hrest

theorem read_write_other (m : Memory) (a x : Nat) (b : Byte) (h : x ≠ a) : (m.write a b).read x = m.read x := by
  induction m with
  | nil => by_cases hb : b = unlistedByte <;> simp [Memory.write, Memory.read, hb, Ne.symm h]
  | cons c rest ih =>
    obtain ⟨k, v⟩ := c
    simp only [Memory.write]
    split
    · split <;> simp [Memory.read, Ne.symm h]
    · split
      · subst_vars
        split <;> simp [Memory.read, Ne.symm h]
      · simp only [Memory.read, ih]

/-- The addresses of a written memory are the old ones and the one written. -/
theorem write_keys (m : Memory) (a : Nat) (b : Byte) (c : Host.Cell) (h : c ∈ m.write a b) : c.1 = a ∨ c ∈ m := by
  induction m with
  | nil =>
    simp only [Memory.write] at h
    split at h <;> simp_all
  | cons e rest ih =>
    obtain ⟨k, v⟩ := e
    simp only [Memory.write] at h
    split at h
    · split at h
      · exact .inr h
      · rcases List.mem_cons.1 h with rfl | h
        · exact .inl rfl
        · exact .inr h
    · split at h
      · split at h
        · exact .inr (List.mem_cons_of_mem _ h)
        · rcases List.mem_cons.1 h with rfl | h
          · exact .inl rfl
          · exact .inr (List.mem_cons_of_mem _ h)
      · rcases List.mem_cons.1 h with rfl | h
        · exact .inr (by simp)
        · exact (ih h).imp_right (List.mem_cons_of_mem _)

theorem write_wf (m : Memory) (a : Nat) (b : Byte) (h : m.wf = true) : (m.write a b).wf = true := by
  induction m with
  | nil => by_cases hb : b = unlistedByte <;> simp [Memory.write, Memory.wf, hb]
  | cons c rest ih =>
    obtain ⟨k, v⟩ := c
    simp only [Memory.wf, Bool.and_eq_true, List.all_eq_true, decide_eq_true_eq] at h
    obtain ⟨⟨hv, hlt⟩, hrest⟩ := h
    have hwf : Memory.wf ((k, v) :: rest) = true := by
      simp only [Memory.wf, Bool.and_eq_true, List.all_eq_true, decide_eq_true_eq]; exact ⟨⟨hv, hlt⟩, hrest⟩
    simp only [Memory.write]
    split
    next h1 =>
      split
      · exact hwf
      next hb =>
        rw [Memory.wf, hwf]
        simp only [Bool.and_true, Bool.and_eq_true, List.all_eq_true, decide_eq_true_eq]
        refine ⟨hb, ?_⟩
        intro x hx
        rcases List.mem_cons.1 hx with rfl | hx
        · exact h1
        · exact lt_trans h1 (hlt x hx)
    next h1 =>
      split
      next h2 =>
        subst h2
        split
        · exact hrest
        next hb =>
          simp only [Memory.wf, Bool.and_eq_true, List.all_eq_true, decide_eq_true_eq]
          exact ⟨⟨hb, hlt⟩, hrest⟩
      next h2 =>
        simp only [Memory.wf, Bool.and_eq_true, List.all_eq_true, decide_eq_true_eq]
        refine ⟨⟨hv, ?_⟩, ih hrest⟩
        intro x hx
        rcases write_keys _ _ _ _ hx with h3 | hx
        · omega
        · exact hlt x hx

theorem writeBytes_wf (m : Memory) (a : Addr) (bytes : List Byte) (h : m.wf = true) :
    (m.writeBytes a bytes).wf = true := by
  induction bytes generalizing m a with
  | nil => exact h
  | cons b rest ih => exact ih _ _ (write_wf _ _ _ h)

theorem reset_mem_wf : State.reset.mem.wf = true := rfl

end Sys2Proof.Machine
end

