-- ==== Sys2Proof/Laws/Ops.lean ====
section
/-! SUPPORT. One lemma for each thing a shared operation can do: the host-port calls, framing, `exchange`, `tryThen`,
`checkR1`, acquisition and release. The meanings are read through these, without unfolding them. -/

namespace Sys2Proof.Machine

/-! ## Results -/

theorem hostCode_eq_well (r : HostResult) : hostCode r = .well ↔ r = .well := by
  cases r with
  | well => simp [hostCode]
  | error e => cases e <;> simp [hostCode, errorCode]

theorem errorCode_ne_well (e : HostError) : errorCode e ≠ .well := by cases e <;> simp [errorCode]

/-- R325: a host never answers one of the core's own sentinels. -/
theorem hostCode_not_sentinel (r : HostResult) :
    hostCode r ≠ .retry ∧ hostCode r ≠ .notReady ∧ hostCode r ≠ .notSupported ∧ hostCode r ≠ .anyError := by
  cases r with
  | well => simp [hostCode]
  | error e => cases e <;> simp [hostCode, errorCode]

/-! ## `try` -/

theorem tryThen_well (p : State × Result) (k : State → State × Result) (h : p.2 = .well) : tryThen p k = k p.1 :=
  if_pos h

theorem tryThen_fail (p : State × Result) (k : State → State × Result) (h : p.2 ≠ .well) : tryThen p k = p :=
  if_neg h

theorem tryThen_cases (p : State × Result) (k : State → State × Result) :
    (p.2 = .well ∧ tryThen p k = k p.1) ∨ (p.2 ≠ .well ∧ tryThen p k = p) := by
  by_cases h : p.2 = .well
  · exact .inl ⟨h, if_pos h⟩
  · exact .inr ⟨h, if_neg h⟩

@[simp] theorem checkR1_state (s : State) : (checkR1 s).1 = s := by unfold checkR1; split <;> rfl

theorem checkR1_result (s : State) : (checkR1 s).2 = if r1Ok s.resp0 then .well else .anyError := by
  unfold checkR1; split <;> rfl

/-! ## Framing -/
@[simp] theorem frame_host (s : State) : (frame s).host = s.host := by unfold frame; split <;> rfl
@[simp] theorem frame_params (s : State) : (frame s).params = s.params := by unfold frame; split <;> rfl
@[simp] theorem frame_card (s : State) : (frame s).card = s.card := by unfold frame; split <;> rfl
@[simp] theorem frame_payload (s : State) : (frame s).payload = s.payload := by unfold frame; split <;> rfl
@[simp] theorem frame_control (s : State) : (frame s).control = s.control := by unfold frame; split <;> rfl
@[simp] theorem frame_mem (s : State) : (frame s).mem = s.mem := by unfold frame; split <;> rfl
@[simp] theorem frame_request (s : State) : (frame s).request = s.request := by unfold frame; split <;> rfl
@[simp] theorem frame_callerDesc (s : State) : (frame s).callerDesc = s.callerDesc := by unfold frame; split <;> rfl
@[simp] theorem frame_outcome (s : State) : (frame s).outcome = s.outcome := by unfold frame; split <;> rfl

@[simp] theorem frame_responseType (s : State) : (frame s).cmd.responseType = s.cmd.responseType := by
  unfold frame; split <;> rfl
@[simp] theorem frame_argument (s : State) : (frame s).cmd.argument = s.cmd.argument := by unfold frame; split <;> rfl
@[simp] theorem frame_data (s : State) : (frame s).cmd.data = s.cmd.data := by unfold frame; split <;> rfl

theorem frame_coreCRC7 (s : State) (h : s.host.framing = .coreCRC7) : frame s = s.setCmd s.cmd.framed := by
  unfold frame; rw [h]

/-! ## Two states that give the next host call the same answer -/

/-- The environment stands at the same point: same host, same scripts, same number of free values drawn. -/
structure SameEnv (s t : State) : Prop where
  host : s.host = t.host
  env : s.env = t.env
  draws : s.draws = t.draws

theorem SameEnv.refl (s : State) : SameEnv s s := ⟨rfl, rfl, rfl⟩

theorem SameEnv.symm {s t : State} (h : SameEnv s t) : SameEnv t s := ⟨h.host.symm, h.env.symm, h.draws.symm⟩

theorem SameEnv.trans {s t u : State} (h : SameEnv s t) (k : SameEnv t u) : SameEnv s u :=
  ⟨h.host.trans k.host, h.env.trans k.env, h.draws.trans k.draws⟩

theorem SameEnv.afterFraming {s t : State} (h : SameEnv s t) : SameEnv (afterFraming s) (afterFraming t) := by
  obtain ⟨h1, h2, h3⟩ := h
  unfold Machine.afterFraming
  rw [h1]
  split
  · exact ⟨h1, h2, h3⟩
  · exact ⟨h1, by simp [State.takeFraming, State.setEnv, h2], by simp [State.takeFraming, State.setEnv, h2, h3]⟩

theorem SameEnv.takeSendCommand {s t : State} (h : SameEnv s t) : SameEnv s.takeSendCommand t.takeSendCommand := by
  obtain ⟨h1, h2, h3⟩ := h
  exact ⟨h1, by simp [State.takeSendCommand, State.setEnv, h2], by simp [State.takeSendCommand, State.setEnv, h2, h3]⟩

theorem SameEnv.takeResponse {s t : State} (h : SameEnv s t) : SameEnv s.takeResponse t.takeResponse := by
  obtain ⟨h1, h2, h3⟩ := h
  exact ⟨h1, by simp [State.takeResponse, State.setEnv, h2], by simp [State.takeResponse, State.setEnv, h2, h3]⟩

theorem SameEnv.takeRecvData {s t : State} (h : SameEnv s t) (n : Nat) : SameEnv (s.takeRecvData n) (t.takeRecvData n) := by
  obtain ⟨h1, h2, h3⟩ := h
  exact ⟨h1, by simp [State.takeRecvData, State.setEnv, h2], by simp [State.takeRecvData, State.setEnv, h2, h3]⟩

theorem SameEnv.takeSendData {s t : State} (h : SameEnv s t) : SameEnv s.takeSendData t.takeSendData := by
  obtain ⟨h1, h2, h3⟩ := h
  exact ⟨h1, by simp [State.takeSendData, State.setEnv, h2], by simp [State.takeSendData, State.setEnv, h2, h3]⟩

theorem SameEnv.takeAcquisition {s t : State} (h : SameEnv s t) : SameEnv s.takeAcquisition t.takeAcquisition := by
  obtain ⟨h1, h2, h3⟩ := h
  exact ⟨h1, by simp [State.takeAcquisition, State.setEnv, h2], by simp [State.takeAcquisition, State.setEnv, h2, h3]⟩

theorem SameEnv.takeVoltage {s t : State} (h : SameEnv s t) : SameEnv s.takeVoltage t.takeVoltage := by
  obtain ⟨h1, h2, h3⟩ := h
  exact ⟨h1, by simp [State.takeVoltage, State.setEnv, h2], by simp [State.takeVoltage, State.setEnv, h2, h3]⟩

theorem SameEnv.nextSend {s t : State} (h : SameEnv s t) : nextSend s = nextSend t := by
  have k := h.afterFraming
  simp only [Machine.nextSend, State.sendCommandAnswer, k.env, k.draws]

theorem SameEnv.nextResponse {s t : State} (h : SameEnv s t) : nextResponse s = nextResponse t := by
  have k := h.afterFraming.takeSendCommand
  simp only [Machine.nextResponse, State.responseAnswer, k.env, k.draws]

theorem SameEnv.afterExchange {s t : State} (h : SameEnv s t) (reads : Bool) :
    SameEnv (afterExchange reads s) (afterExchange reads t) := by
  unfold Machine.afterExchange
  split
  · exact h.afterFraming.takeSendCommand.takeResponse
  · exact h.afterFraming.takeSendCommand

theorem SameEnv.recvDataAnswer {s t : State} (h : SameEnv s t) : s.recvDataAnswer = t.recvDataAnswer := by
  simp only [State.recvDataAnswer, h.env, h.draws]

theorem SameEnv.recvDataBytes {s t : State} (h : SameEnv s t) (n : Nat) : s.recvDataBytes n = t.recvDataBytes n := by
  simp only [State.recvDataBytes, h.env, h.draws]

theorem SameEnv.sendDataAnswer {s t : State} (h : SameEnv s t) : s.sendDataAnswer = t.sendDataAnswer := by
  simp only [State.sendDataAnswer, h.env, h.draws]

theorem SameEnv.voltageAnswer {s t : State} (h : SameEnv s t) : s.voltageAnswer = t.voltageAnswer := by
  simp only [State.voltageAnswer, h.env, h.draws]

theorem SameEnv.acquireAnswer {s t : State} (h : SameEnv s t) : s.acquireAnswer = t.acquireAnswer := by
  simp only [State.acquireAnswer, h.env, h.draws]

theorem SameEnv.responseAnswer {s t : State} (h : SameEnv s t) : s.responseAnswer = t.responseAnswer := by
  simp only [State.responseAnswer, h.env, h.draws]

theorem sameEnv_begin (s : State) : SameEnv s.begin s := ⟨rfl, rfl, rfl⟩
theorem sameEnv_setCard (s : State) (c : Card) : SameEnv (s.setCard c) s := ⟨rfl, rfl, rfl⟩
theorem sameEnv_setCmd (s : State) (c : CmdReg) : SameEnv (s.setCmd c) s := ⟨rfl, rfl, rfl⟩
theorem sameEnv_setPayload (s : State) (p : Option Payload) : SameEnv (s.setPayload p) s := ⟨rfl, rfl, rfl⟩
theorem sameEnv_log (s : State) (e : HostEvent) : SameEnv (s.log e) s := ⟨rfl, rfl, rfl⟩

theorem sameEnv_frame (s : State) : SameEnv (frame s) (afterFraming s) := by
  unfold frame Machine.afterFraming
  cases s.host.framing <;> exact ⟨rfl, rfl, rfl⟩

/-! ## `exchange` -/

/-- What an exchange is, without its cases. -/
theorem exchange_eq (c : CmdReg) (s : State) :
    exchange c s =
      if nextSend s = .well ∧ c.responseType ≠ .none then
        (hostRecvResponse (hostSendCommand (frame (s.setCmd c))).1, .well)
      else ((hostSendCommand (frame (s.setCmd c))).1, hostCode (nextSend s)) := by
  have h : (frame (s.setCmd c)).sendCommandAnswer = nextSend s := by
    have k := (sameEnv_frame (s.setCmd c)).trans (sameEnv_setCmd s c).afterFraming
    simp only [nextSend, State.sendCommandAnswer, k.env, k.draws]
  unfold exchange
  have h2 : (hostSendCommand (frame (s.setCmd c))).2 = hostCode (nextSend s) := by rw [← h]; rfl
  simp only [h2, ne_eq, hostCode_eq_well]
  by_cases hw : nextSend s = .well
  · by_cases ht : c.responseType = .none
    · simp [hw, ht, Prod.ext_iff, h2]
    · simp [hw, ht]
  · simp [hw, Prod.ext_iff, h2]

/-- R14, R325: the result of an exchange is the host's answer. -/
@[simp] theorem exchange_result (c : CmdReg) (s : State) : (exchange c s).2 = hostCode (nextSend s) := by
  rw [exchange_eq]
  split
  next h => simp [h.1, hostCode]
  next => rfl

@[simp] theorem exchange_host (c : CmdReg) (s : State) : (exchange c s).1.host = s.host := by
  rw [exchange_eq]; split <;> simp [hostRecvResponse, hostSendCommand]
@[simp] theorem exchange_params (c : CmdReg) (s : State) : (exchange c s).1.params = s.params := by
  rw [exchange_eq]; split <;> simp [hostRecvResponse, hostSendCommand]
@[simp] theorem exchange_card (c : CmdReg) (s : State) : (exchange c s).1.card = s.card := by
  rw [exchange_eq]; split <;> simp [hostRecvResponse, hostSendCommand]
@[simp] theorem exchange_payload (c : CmdReg) (s : State) : (exchange c s).1.payload = s.payload := by
  rw [exchange_eq]; split <;> simp [hostRecvResponse, hostSendCommand]
@[simp] theorem exchange_control (c : CmdReg) (s : State) : (exchange c s).1.control = s.control := by
  rw [exchange_eq]; split <;> simp [hostRecvResponse, hostSendCommand]
@[simp] theorem exchange_mem (c : CmdReg) (s : State) : (exchange c s).1.mem = s.mem := by
  rw [exchange_eq]; split <;> simp [hostRecvResponse, hostSendCommand]
@[simp] theorem exchange_request (c : CmdReg) (s : State) : (exchange c s).1.request = s.request := by
  rw [exchange_eq]; split <;> simp [hostRecvResponse, hostSendCommand]
@[simp] theorem exchange_callerDesc (c : CmdReg) (s : State) : (exchange c s).1.callerDesc = s.callerDesc := by
  rw [exchange_eq]; split <;> simp [hostRecvResponse, hostSendCommand]
@[simp] theorem exchange_outcome (c : CmdReg) (s : State) : (exchange c s).1.outcome = s.outcome := by
  rw [exchange_eq]; split <;> simp [hostRecvResponse, hostSendCommand]

/-- R14, R85, R86: the response words an exchange leaves. -/
theorem exchange_response (c : CmdReg) (s : State) (h : nextSend s = .well) (ht : c.responseType ≠ .none) :
    (exchange c s).1.cmd.response = nextResponse s := by
  rw [exchange_eq, if_pos ⟨h, ht⟩]
  have k := ((sameEnv_frame (s.setCmd c)).trans (sameEnv_setCmd s c).afterFraming).takeSendCommand
  have k2 : SameEnv (hostSendCommand (frame (s.setCmd c))).1 (afterFraming s).takeSendCommand :=
    (sameEnv_log _ _).trans k
  exact k2.responseAnswer

theorem exchange_resp0 (c : CmdReg) (s : State) (h : nextSend s = .well) (ht : c.responseType ≠ .none) :
    (exchange c s).1.resp0 = (nextResponse s).w0 := by
  rw [State.resp0, exchange_response c s h ht]

/-- The environment after an exchange. -/
theorem exchange_sameEnv (c : CmdReg) (s : State) :
    SameEnv (exchange c s).1 (afterExchange (decide (nextSend s = .well ∧ c.responseType ≠ .none)) s) := by
  have k := ((sameEnv_frame (s.setCmd c)).trans (sameEnv_setCmd s c).afterFraming).takeSendCommand
  have k2 : SameEnv (hostSendCommand (frame (s.setCmd c))).1 (afterFraming s).takeSendCommand :=
    (sameEnv_log _ _).trans k
  rw [exchange_eq]
  by_cases h : nextSend s = .well ∧ c.responseType ≠ .none
  · rw [if_pos h, decide_eq_true h]
    exact ((sameEnv_log _ _).trans (sameEnv_setCmd _ _)).trans k2.takeResponse
  · rw [if_neg h, decide_eq_false h]
    exact k2

/-- The environment after an exchange that read a response. -/
theorem exchange_sameEnv_reads (c : CmdReg) (s : State) (h : nextSend s = .well) (ht : c.responseType ≠ .none) :
    SameEnv (exchange c s).1 (afterExchange true s) := by
  have k := exchange_sameEnv c s
  rwa [decide_eq_true ⟨h, ht⟩] at k

/-- Under the core's framer an exchange records the framed register, and the response words when it reads some. -/
theorem exchange_trace (c : CmdReg) (s : State) (h : s.host.framing = .coreCRC7) :
    (exchange c s).1.trace =
      (if nextSend s = .well ∧ c.responseType ≠ .none then [HostEvent.recvResponse (nextResponse s)] else [])
        ++ HostEvent.sendCommand c.framed (nextSend s) :: s.trace := by
  have hf : (s.setCmd c).host.framing = .coreCRC7 := h
  have ha : afterFraming s = s := by unfold afterFraming; rw [h]
  rw [exchange_eq, frame_coreCRC7 _ hf]
  split
  next h1 => simp [hostRecvResponse, hostSendCommand, nextSend, nextResponse, ha, State.log]; exact ⟨rfl, rfl⟩
  next h1 => simp [hostSendCommand, nextSend, ha, State.log]; rfl

theorem frame_grows (s : State) : ∃ l, (frame s).trace = l ++ s.trace := by
  unfold frame
  split
  · exact ⟨[], rfl⟩
  · exact ⟨[_], rfl⟩

/-- R358: an exchange only adds to the trace. -/
theorem exchange_grows (c : CmdReg) (s : State) : ∃ l, (exchange c s).1.trace = l ++ s.trace := by
  obtain ⟨l, hl⟩ := frame_grows (s.setCmd c)
  rw [setCmd_trace] at hl
  rw [exchange_eq]
  split
  · exact ⟨_ :: _ :: l, by simp [hostRecvResponse, hostSendCommand, State.log, hl]; exact ⟨rfl, rfl⟩⟩
  · exact ⟨_ :: l, by simp [hostSendCommand, State.log, hl]; rfl⟩

/-! ## The frames on the wire -/

theorem wireTraceOf_cons (e : HostEvent) (l : List HostEvent) :
    wireTraceOf (e :: l) = wireTraceOf l ++ (HostEvent.wire? e).toList := by
  simp only [wireTraceOf, List.reverse_cons, List.filterMap_append]
  cases h : HostEvent.wire? e <;> simp [h]

@[simp] theorem wireTraceOf_nil : wireTraceOf [] = [] := rfl

/-- R80, R164: the frame an exchange puts on the wire. -/
theorem exchange_wires (c : CmdReg) (s : State) (h : s.host.framing = .coreCRC7) :
    wireTraceOf (exchange c s).1.trace = wireTraceOf s.trace ++ [c.framed.wire] := by
  rw [exchange_trace c s h]
  split <;> simp [wireTraceOf_cons, HostEvent.wire?]

theorem startBits_low (i : BitVec 6) : startBits (i.zeroExtend 8) = 1#2 ++ i := by
  revert i; decide

/-- R180, R164: the wire form of a fresh command register. -/
@[simp] theorem newCmd_wire (i : BitVec 6) (a : Word) (t : ResponseType) : (newCmd i a t).framed.wire = frameOf i a := rfl

@[simp] theorem newDataCmd_wire (i : BitVec 6) (a : Word) (t : ResponseType) (d : Option Descriptor) :
    (newDataCmd i a t d).framed.wire = frameOf i a := rfl

@[simp] theorem newCmd_responseType (i : BitVec 6) (a : Word) (t : ResponseType) : (newCmd i a t).responseType = t := rfl

@[simp] theorem newDataCmd_responseType (i : BitVec 6) (a : Word) (t : ResponseType) (d : Option Descriptor) :
    (newDataCmd i a t d).responseType = t := rfl

/-! ## The other host calls -/

theorem hostSendData_state (d : Descriptor) (s : State) :
    ∃ bytes, (hostSendData d s).1 = s.takeSendData.log (.sendData d bytes s.sendDataAnswer) := ⟨_, rfl⟩

@[simp] theorem hostSendData_result (d : Descriptor) (s : State) : (hostSendData d s).2 = hostCode s.sendDataAnswer := rfl

@[simp] theorem hostRecvData_result (d : Descriptor) (s : State) : (hostRecvData d s).2 = hostCode s.recvDataAnswer := rfl

theorem recvDataBytes_length (s : State) (n : Nat) : (s.recvDataBytes n).length = n := by
  simp [State.recvDataBytes]

/-! ## Acquisition -/

theorem acquire_result (n : Nat) (s : State) : (acquire n s).2 = s.acquireAnswer := by
  unfold acquire; split <;> simp_all

theorem acquire_some (n : Nat) (s : State) (h : s.acquireAnswer = true) :
    acquire n s = (s.takeAcquisition.setPayload (some ⟨n, []⟩), true) := if_pos h

theorem acquire_none (n : Nat) (s : State) (h : s.acquireAnswer = false) : acquire n s = (s.takeAcquisition, false) :=
  if_neg (by simp [h])

@[simp] theorem release_state (p : State × Result) : (release p).1 = p.1.setPayload none := rfl

@[simp] theorem release_result (p : State × Result) : (release p).2 = p.2 := rfl

/-! ## Requests -/

/-- What a request other than `allocate_device` can do: be refused, end with `NullPtr`, or enter its pseudocode. -/
theorem runOperation_cases (enter : List Frame → State → State) (s : State) :
    (s.control ≠ .idle ∧ runOperation enter s = .refused .overlappingRequest) ∨
    (s.control = .idle ∧ s.card.allocated = false ∧
      runOperation enter s = .next (s.begin.finish false (some .nullPtr))) ∨
    (s.control = .idle ∧ s.card.allocated = true ∧ runOperation enter s = .next (enter [] s.begin)) := by
  unfold runOperation
  by_cases h : s.control = .idle
  · by_cases ha : s.card.allocated = false
    · exact .inr (.inl ⟨h, ha, by simp [h, ha]⟩)
    · exact .inr (.inr ⟨h, by simpa using ha, by simp [h, ha]⟩)
  · exact .inl ⟨h, by simp [h]⟩

theorem runOperation_ready (enter : List Frame → State → State) (s : State) (h : Ready s) :
    runOperation enter s = .next (enter [] s.begin) := by
  simp [runOperation, h.idle, h.allocated]

end Sys2Proof.Machine
end

