-- ==== Sys2Proof/Laws/Runs.lean ====
section
/-! SUPPORT. What a run of host-port calls leaves as it was, and the frames it sends: the relation `Ran`, its instances for the
shared operations, and the request it leaves behind. -/

namespace Sys2Proof.Machine

/-- From `s` to `t` only the Card, the command register, the payload buffer, the environment and the trace may have changed, and
under the core's framer these frames went out. The trace only grows. -/
structure Ran (s t : State) (frames : List (BitVec 48)) : Prop where
  host : t.host = s.host
  params : t.params = s.params
  control : t.control = s.control
  mem : t.mem = s.mem
  request : t.request = s.request
  callerDesc : t.callerDesc = s.callerDesc
  outcome : t.outcome = s.outcome
  grows : ∃ l, t.trace = l ++ s.trace
  frames : s.host.framing = .coreCRC7 → wireTraceOf t.trace = wireTraceOf s.trace ++ frames

theorem Ran.refl (s : State) : Ran s s [] := ⟨rfl, rfl, rfl, rfl, rfl, rfl, rfl, ⟨[], rfl⟩, fun _ => by simp⟩

theorem Ran.trans {s t u : State} {f g : List (BitVec 48)} (h : Ran s t f) (k : Ran t u g) : Ran s u (f ++ g) :=
  ⟨k.host.trans h.host, k.params.trans h.params, k.control.trans h.control, k.mem.trans h.mem,
    k.request.trans h.request, k.callerDesc.trans h.callerDesc, k.outcome.trans h.outcome,
    (by
      obtain ⟨l, hl⟩ := h.grows
      obtain ⟨m, hm⟩ := k.grows
      exact ⟨m ++ l, by rw [hm, hl, List.append_assoc]⟩),
    fun hf => by rw [k.frames (by rw [h.host]; exact hf), h.frames hf, List.append_assoc]⟩

/-- A run whose last part sends no frame. -/
theorem Ran.then {s t u : State} {f : List (BitVec 48)} (h : Ran s t f) (k : Ran t u []) : Ran s u f := by
  simpa using h.trans k

/-- An event that is no `send_command` adds no frame. -/
theorem ran_log (s : State) (e : HostEvent) (h : HostEvent.wire? e = none) : Ran s (s.log e) [] :=
  ⟨rfl, rfl, rfl, rfl, rfl, rfl, rfl, ⟨[e], rfl⟩, fun _ => by simp [State.log, wireTraceOf_cons, h]⟩

theorem ran_setCard (s : State) (c : Card) : Ran s (s.setCard c) [] :=
  ⟨rfl, rfl, rfl, rfl, rfl, rfl, rfl, ⟨[], rfl⟩, fun _ => by simp⟩

theorem ran_setCmd (s : State) (c : CmdReg) : Ran s (s.setCmd c) [] := ⟨rfl, rfl, rfl, rfl, rfl, rfl, rfl, ⟨[], rfl⟩, fun _ => by simp⟩

theorem ran_setPayload (s : State) (p : Option Payload) : Ran s (s.setPayload p) [] :=
  ⟨rfl, rfl, rfl, rfl, rfl, rfl, rfl, ⟨[], rfl⟩, fun _ => by simp⟩

theorem ran_setEnv (s : State) (e : Environment) (n : Nat) : Ran s (s.setEnv e n) [] :=
  ⟨rfl, rfl, rfl, rfl, rfl, rfl, rfl, ⟨[], rfl⟩, fun _ => by simp [State.setEnv]⟩

theorem ran_setMode (s : State) (m : ModeName) : Ran s (s.setMode m) [] := ran_setCard _ _

theorem exchange_ran (c : CmdReg) (s : State) : Ran s (exchange c s).1 [c.framed.wire] :=
  ⟨by simp, by simp, by simp, by simp, by simp, by simp, by simp, exchange_grows c s, exchange_wires c s⟩

theorem hostRecvResponse_ran (s : State) : Ran s (hostRecvResponse s) [] :=
  ((ran_setEnv s _ _).then (ran_setCmd _ _)).then (ran_log _ _ rfl)

theorem hostSendData_ran (d : Descriptor) (s : State) : Ran s (hostSendData d s).1 [] :=
  (ran_setEnv s _ _).then (ran_log _ _ rfl)

theorem hostSetBusWidth_ran (w : BusWidth) (s : State) : Ran s (hostSetBusWidth w s) [] :=
  (ran_setCard s _).then (ran_log _ _ rfl)

theorem hostSetClockFrequency_ran (c : ClockClass) (s : State) : Ran s (hostSetClockFrequency c s) [] :=
  (ran_setCard s _).then (ran_log _ _ rfl)

theorem hostIsCardInserted_ran (s : State) : Ran s (hostIsCardInserted s).1 [] :=
  (ran_setEnv s _ _).then (ran_log _ _ rfl)

theorem hostActivateCard_ran (s : State) : Ran s (hostActivateCard s).1 [] :=
  (ran_setEnv s _ _).then (ran_log _ _ rfl)

theorem hostSwitchVoltage_ran (s : State) : Ran s (hostSwitchVoltage s).1 [] :=
  (ran_setEnv s _ _).then (ran_log _ _ rfl)

/-- A payload read leaves system memory alone. -/
theorem hostRecvData_payload_ran (d : Descriptor) (s : State) (h : d.rxBuffer = some .payload) :
    Ran s (hostRecvData d s).1 [] := by
  have k : (hostRecvData d s).1 =
      ((s.takeRecvData d.capacity.toNat).setPayload
        (some ⟨(s.recvDataBytes d.capacity.toNat).length, s.recvDataBytes d.capacity.toNat⟩)).log
          (.recvData d (s.recvDataBytes d.capacity.toNat) s.recvDataAnswer) := by
    simp [hostRecvData, h, State.receive]
  rw [k]
  exact ((ran_setEnv s _ _).then (ran_setPayload _ _)).then (ran_log _ _ rfl)

theorem acquire_ran (n : Nat) (s : State) : Ran s (acquire n s).1 [] := by
  unfold acquire
  split
  · exact (ran_setEnv s _ _).then (ran_setPayload _ _)
  · exact ran_setEnv s _ _

theorem release_ran (p : State × Result) : Ran p.1 (release p).1 [] := ran_setPayload _ _

/-! ## From a run to the end of a request -/

theorem Ran.finishes {s t : State} {f : List (BitVec 48)} (h : Ran s t f) (ok : Bool) (code : Option Result) :
    Finishes s (t.finish ok code) t.card ok code f :=
  ⟨h.host, h.params, h.request, rfl, rfl, rfl, rfl, rfl, rfl, h.frames⟩

theorem Ran.memorySame {s t : State} {f : List (BitVec 48)} (h : Ran s t f) : MemorySame s t := fun a => by rw [h.mem]

end Sys2Proof.Machine
end

