-- ==== Sys2Proof/Laws/Controllers.lean ====
section
/-! SUPPORT. What each controller of 42_command_controllers.md can do, said once: the frames it sends (`…_ran`), its result
(`…_result`) in terms of what the environment answers next, what it does to the Card and to the payload buffer, and where it
leaves the environment (`…_sameEnv`). -/

namespace Sys2Proof.Machine

theorem r1Ok_iff (w : Word) : r1Ok w = true ↔ w &&& 0xFFF80008#32 = 0#32 := decide_eq_true_iff

/-! ## The RCA in an argument (R88) -/

theorem rca16_toNat (r : BitVec 16) : (rca16 r).toNat = r.toNat * 65536 := by
  have h : (rca16 r).toNat = (r ++ 0#16 : BitVec (16 + 16)).toNat := rfl
  rw [h, BitVec.toNat_append]
  simp [Nat.shiftLeft_eq]

theorem rca16_high (r : BitVec 16) : (rca16 r).extractLsb 31 16 = r := by
  apply BitVec.eq_of_toNat_eq
  have := rca16_toNat r
  simp [this, Nat.shiftRight_eq_div_pow]
  exact r.isLt

theorem rca16_eq_zero (r : BitVec 16) : rca16 r = 0#32 ↔ r = 0#16 := by
  rw [← BitVec.toNat_inj, rca16_toNat, ← BitVec.toNat_inj]; simp

/-! ## The CSD structure in the response words -/

/-- R86, R130: the structure field stands in the top bits of `response[3]`. -/
theorem csdStructure_registerOfWords (r : ResponseWords) : csdStructure (registerOfWords r) = r.w3.extractLsb 31 30 := by
  have key : ∀ k, 96 ≤ k → (registerOfWords r).getLsbD k = r.w3.getLsbD (k - 96) := by
    intro k hk
    have h := BitVec.getLsbD_append (x := r.w3) (y := (r.w2 ++ (r.w1 ++ r.w0) : BitVec (32 + (32 + 32)))) (i := k)
    rw [if_neg (by omega)] at h
    exact h
  unfold csdStructure
  ext i hi
  rw [← BitVec.getLsbD_eq_getElem, ← BitVec.getLsbD_eq_getElem, BitVec.getLsbD_extractLsb, BitVec.getLsbD_extractLsb, key _ (by omega)]
  rw [show 126 + i - 96 = 30 + i by omega]

/-! ## The frames with no operand (95_test_vectors.md section 2.2) -/

set_option maxRecDepth 4000 in
theorem frame_cmd0 : frameOf 0#6 0#32 = 0x400000000095#48 := by decide
set_option maxRecDepth 4000 in
theorem frame_cmd2 : frameOf 2#6 0#32 = 0x42000000004D#48 := by decide
set_option maxRecDepth 4000 in
theorem frame_cmd3 : frameOf 3#6 0#32 = 0x430000000021#48 := by decide
set_option maxRecDepth 4000 in
theorem frame_deselect : frameOf 7#6 0#32 = 0x470000000083#48 := by decide
set_option maxRecDepth 4000 in
theorem frame_cmd8 : frameOf 8#6 cmd8Arg = 0x48000001AA87#48 := by decide
set_option maxRecDepth 4000 in
theorem frame_cmd11 : frameOf 11#6 0#32 = 0x4B0000000077#48 := by decide
set_option maxRecDepth 4000 in
theorem frame_cmd12 : frameOf 12#6 0#32 = 0x4C0000000061#48 := by decide
set_option maxRecDepth 4000 in
theorem frame_cmd16_64 : frameOf 16#6 switchBlockLen = 0x5000000040F1#48 := by decide
set_option maxRecDepth 4000 in
theorem frame_cmd16_512 : frameOf 16#6 blockLen = 0x500000020015#48 := by decide
set_option maxRecDepth 4000 in
theorem frame_cmd38 : frameOf 38#6 0#32 = 0x6600000000A5#48 := by decide
set_option maxRecDepth 4000 in
theorem frame_cmd51 : frameOf 51#6 0#32 = 0x7300000000C7#48 := by decide
set_option maxRecDepth 4000 in
theorem frame_cmd55_rca0 : frameOf 55#6 0#32 = 0x770000000065#48 := by decide

/-! ## The frames of the three negotiations (43_function_switch.md R247) -/

set_option maxRecDepth 8000 in
theorem frame_check_1_1 : frameOf 6#6 (cmd6Arg .check 1 1) = 0x4600FFFFF11F#48 := by decide
set_option maxRecDepth 8000 in
theorem frame_check_3_0 : frameOf 6#6 (cmd6Arg .check 3 0) = 0x4600FFF0FF31#48 := by decide
set_option maxRecDepth 8000 in
theorem frame_check_4_0 : frameOf 6#6 (cmd6Arg .check 4 0) = 0x4600FF0FFF09#48 := by decide
set_option maxRecDepth 8000 in
theorem frame_switch_1_1 : frameOf 6#6 (cmd6Arg .switch 1 1) = 0x4680FFFFF129#48 := by decide
set_option maxRecDepth 8000 in
theorem frame_switch_3_0 : frameOf 6#6 (cmd6Arg .switch 3 0) = 0x4680FFF0FF07#48 := by decide
set_option maxRecDepth 8000 in
theorem frame_switch_4_0 : frameOf 6#6 (cmd6Arg .switch 4 0) = 0x4680FF0FFF3F#48 := by decide

/-! ## Results in terms of the environment -/

theorem r1Result_error (s : State) (e : HostError) (h : nextSend s = .error e) : r1Result s = errorCode e := by
  simp [r1Result, h]

theorem r1Result_well (s : State) (h : nextSend s = .well) :
    r1Result s = if r1Ok (nextResponse s).w0 then .well else .anyError := by
  simp [r1Result, h, r1Ok_iff]

theorem r1Result_eq_well (s : State) : r1Result s = .well ↔ nextSend s = .well ∧ r1Ok (nextResponse s).w0 = true := by
  cases h : nextSend s with
  | well => rw [r1Result_well s h]; split <;> simp_all
  | error e => simp [r1Result_error s e h, errorCode_ne_well]

theorem SameEnv.r1Result {s t : State} (h : SameEnv s t) : r1Result s = r1Result t := by
  unfold Machine.r1Result; rw [h.nextSend, h.nextResponse]

theorem SameEnv.appPrefixResult {s t : State} (h : SameEnv s t) : appPrefixResult s = appPrefixResult t := by
  unfold Machine.appPrefixResult; rw [h.r1Result, h.nextResponse]

theorem SameEnv.statusResult {s t : State} (h : SameEnv s t) : statusResult s = statusResult t := by
  unfold Machine.statusResult; rw [h.r1Result, h.nextResponse]

theorem SameEnv.stopResult {s t : State} (h : SameEnv s t) : stopResult s = stopResult t := by
  unfold Machine.stopResult; rw [h.r1Result]

theorem SameEnv.ifCondResult {s t : State} (h : SameEnv s t) : ifCondResult s = ifCondResult t := by
  unfold Machine.ifCondResult; rw [h.nextSend, h.nextResponse]

theorem SameEnv.dataAnswer {s t : State} (h : SameEnv s t) (dir : Direction) : dataAnswer dir s = dataAnswer dir t := by
  cases dir
  · exact h.recvDataAnswer
  · exact h.sendDataAnswer

/-! ## A checked exchange: CMD16, CMD17, CMD18, CMD24, CMD25, CMD32, CMD33, CMD38 -/

/-- An exchange followed by `checkR1` leaves the state the exchange leaves. -/
theorem checkedExchange_state (c : CmdReg) (s : State) : (checkedExchange c s).1 = (exchange c s).1 := by
  unfold checkedExchange
  rcases tryThen_cases (exchange c s) checkR1 with ⟨_, h⟩ | ⟨_, h⟩ <;> rw [h]
  simp

theorem checkedExchange_result (c : CmdReg) (s : State) (ht : c.responseType ≠ .none) :
    (checkedExchange c s).2 = r1Result s := by
  unfold checkedExchange
  cases h : nextSend s with
  | well =>
    rw [tryThen_well _ _ (by simp [h, hostCode]), checkR1_result, exchange_resp0 c s h ht, r1Result_well s h]
  | error e =>
    rw [tryThen_fail _ _ (by simp [h, hostCode, errorCode_ne_well]), r1Result_error s e h]
    simp [h, hostCode]

theorem checkedExchange_ran (c : CmdReg) (s : State) : Ran s (checkedExchange c s).1 [c.framed.wire] := by
  rw [checkedExchange_state]; exact exchange_ran c s

@[simp] theorem checkedExchange_card (c : CmdReg) (s : State) : (checkedExchange c s).1.card = s.card := by
  rw [checkedExchange_state]; simp

@[simp] theorem checkedExchange_payload (c : CmdReg) (s : State) : (checkedExchange c s).1.payload = s.payload := by
  rw [checkedExchange_state]; simp

theorem checkedExchange_sameEnv (c : CmdReg) (s : State) (h : nextSend s = .well) (ht : c.responseType ≠ .none) :
    SameEnv (checkedExchange c s).1 (afterExchange true s) := by
  rw [checkedExchange_state]; exact exchange_sameEnv_reads c s h ht

theorem setBlockLength_ran (len : Word) (s : State) : Ran s (setBlockLength len s).1 [frameOf 16#6 len] :=
  checkedExchange_ran _ s

theorem setBlockLength_result (len : Word) (s : State) : (setBlockLength len s).2 = r1Result s :=
  checkedExchange_result _ s (by simp)

@[simp] theorem setBlockLength_card (len : Word) (s : State) : (setBlockLength len s).1.card = s.card :=
  checkedExchange_card _ s

@[simp] theorem setBlockLength_payload (len : Word) (s : State) : (setBlockLength len s).1.payload = s.payload :=
  checkedExchange_payload _ s

theorem setBlockLength_sameEnv (len : Word) (s : State) (h : nextSend s = .well) :
    SameEnv (setBlockLength len s).1 (afterExchange true s) :=
  checkedExchange_sameEnv _ s h (by simp)

/-! ## CMD55 -/

theorem appCmdPrefix_state (s : State) : (appCmdPrefix s).1 = (exchange (newCmd 55#6 s.card.rcaArg .r1) s).1 := by
  unfold appCmdPrefix
  rcases tryThen_cases (exchange (newCmd 55#6 s.card.rcaArg .r1) s) _ with ⟨_, h⟩ | ⟨_, h⟩ <;> rw [h]
  split
  · rfl
  · split <;> rfl

theorem appCmdPrefix_result (s : State) : (appCmdPrefix s).2 = appPrefixResult s := by
  unfold appCmdPrefix appPrefixResult
  cases h : nextSend s with
  | well =>
    rw [tryThen_well _ _ (by simp [h, hostCode]), exchange_resp0 _ s h (by simp), r1Result_well s h]
    cases hr : r1Ok (nextResponse s).w0
    · simp
    · by_cases ha : (nextResponse s).w0.getLsbD 5 = true
      · simp only [appCmdSet, ha, if_true]; rfl
      · simp only [appCmdSet, Bool.not_eq_true _ ▸ ha, if_true]; rfl
  | error e =>
    rw [tryThen_fail _ _ (by simp [h, hostCode, errorCode_ne_well]), r1Result_error s e h]
    have := errorCode_ne_well e
    cases he : errorCode e <;> simp_all [hostCode]

theorem appPrefixResult_well_send (s : State) (h : appPrefixResult s = .well) : nextSend s = .well := by
  unfold appPrefixResult at h
  cases hr : r1Result s <;> rw [hr] at h <;> simp_all
  exact ((r1Result_eq_well s).1 hr).1

theorem appCmdPrefix_ran (s : State) : Ran s (appCmdPrefix s).1 [frameOf 55#6 (s.card.rca ++ 0#16)] := by
  rw [appCmdPrefix_state]; exact exchange_ran _ s

@[simp] theorem appCmdPrefix_card (s : State) : (appCmdPrefix s).1.card = s.card := by rw [appCmdPrefix_state]; simp

@[simp] theorem appCmdPrefix_payload (s : State) : (appCmdPrefix s).1.payload = s.payload := by
  rw [appCmdPrefix_state]; simp

theorem appCmdPrefix_sameEnv (s : State) (h : appPrefixResult s = .well) :
    SameEnv (appCmdPrefix s).1 (afterExchange true s) := by
  rw [appCmdPrefix_state]; exact exchange_sameEnv_reads _ s (appPrefixResult_well_send s h) (by simp)

/-! ## CMD13, CMD12 and CMD8 -/

theorem getStatus_state (s : State) : (getStatus s).1 = (exchange (newCmd 13#6 s.card.rcaArg .r1) s).1 := by
  unfold getStatus
  rcases tryThen_cases (exchange (newCmd 13#6 s.card.rcaArg .r1) s) _ with ⟨_, h⟩ | ⟨_, h⟩ <;> rw [h]
  split
  · rfl
  · split <;> rfl

theorem getStatus_result (s : State) : (getStatus s).2 = statusResult s := by
  unfold getStatus statusResult
  cases h : nextSend s with
  | well =>
    rw [tryThen_well _ _ (by simp [h, hostCode]), exchange_resp0 _ s h (by simp), r1Result_well s h]
    cases hr : r1Ok (nextResponse s).w0
    · simp
    · simp only [isProgramming, decide_eq_true_eq, Bool.true_eq_false, if_false, if_true]
      split <;> rfl
  | error e =>
    rw [tryThen_fail _ _ (by simp [h, hostCode, errorCode_ne_well]), r1Result_error s e h]
    have := errorCode_ne_well e
    cases he : errorCode e <;> simp_all [hostCode]

theorem getStatus_ran (s : State) : Ran s (getStatus s).1 [frameOf 13#6 (s.card.rca ++ 0#16)] := by
  rw [getStatus_state]; exact exchange_ran _ s

@[simp] theorem getStatus_card (s : State) : (getStatus s).1.card = s.card := by rw [getStatus_state]; simp

@[simp] theorem getStatus_payload (s : State) : (getStatus s).1.payload = s.payload := by rw [getStatus_state]; simp

theorem statusResult_well_send (s : State) (h : statusResult s = .well) : nextSend s = .well := by
  unfold statusResult at h
  cases hr : r1Result s <;> rw [hr] at h <;> simp_all
  exact ((r1Result_eq_well s).1 hr).1

theorem getStatus_sameEnv (s : State) (h : nextSend s = .well) : SameEnv (getStatus s).1 (afterExchange true s) := by
  rw [getStatus_state]; exact exchange_sameEnv_reads _ s h (by simp)

theorem stopTransmission_state (s : State) : (stopTransmission s).1 = (exchange (newCmd 12#6 0#32 .r1b) s).1 := by
  unfold stopTransmission
  simp only
  split
  · rfl
  · split <;> rfl

theorem stopTransmission_result (s : State) : (stopTransmission s).2 = stopResult s := by
  unfold stopTransmission stopResult
  simp only [exchange_result]
  cases h : nextSend s with
  | well =>
    simp only [hostCode, ne_eq, not_true_eq_false, if_false, exchange_resp0 _ s h (show (newCmd 12#6 0#32 .r1b).responseType ≠ .none by simp)]
    rw [r1Result_well s h]
    cases hr : r1Ok (nextResponse s).w0 <;> simp
  | error e =>
    simp [hostCode, errorCode_ne_well, r1Result_error s e h]

theorem stopTransmission_ran (s : State) : Ran s (stopTransmission s).1 [0x4C0000000061#48] := by
  rw [stopTransmission_state, ← frame_cmd12]; exact exchange_ran _ s

@[simp] theorem stopTransmission_card (s : State) : (stopTransmission s).1.card = s.card := by
  rw [stopTransmission_state]; simp

@[simp] theorem stopTransmission_payload (s : State) : (stopTransmission s).1.payload = s.payload := by
  rw [stopTransmission_state]; simp

theorem sendIfCondAttempt_state (s : State) : (sendIfCondAttempt s).1 = (exchange (newCmd 8#6 cmd8Arg .r7) s).1 := by
  unfold sendIfCondAttempt
  rcases tryThen_cases (exchange (newCmd 8#6 cmd8Arg .r7) s) _ with ⟨_, h⟩ | ⟨_, h⟩ <;> rw [h]
  split <;> rfl

theorem sendIfCondAttempt_result (s : State) : (sendIfCondAttempt s).2 = ifCondResult s := by
  unfold sendIfCondAttempt ifCondResult
  cases h : nextSend s with
  | well =>
    rw [tryThen_well _ _ (by simp [h, hostCode]), exchange_resp0 _ s h (by simp)]
    simp only [r7Ok, decide_eq_true_eq]
    split <;> rfl
  | error e =>
    rw [tryThen_fail _ _ (by simp [h, hostCode, errorCode_ne_well])]
    simp [h, hostCode]

theorem sendIfCondAttempt_ran (s : State) : Ran s (sendIfCondAttempt s).1 [0x48000001AA87#48] := by
  rw [sendIfCondAttempt_state, ← frame_cmd8]; exact exchange_ran _ s

@[simp] theorem sendIfCondAttempt_card (s : State) : (sendIfCondAttempt s).1.card = s.card := by
  rw [sendIfCondAttempt_state]; simp

@[simp] theorem sendIfCondAttempt_payload (s : State) : (sendIfCondAttempt s).1.payload = s.payload := by
  rw [sendIfCondAttempt_state]; simp

end Sys2Proof.Machine
end

