-- ==== Sys2Proof/Laws/BlockEngine.lean ====
section
/-! SUPPORT. What the block engine can do (44_block_transfer.md), said once: the command phase, the data phase, CMD12, an attempt,
and the commands of an erase chunk; and what a write of a buffer does to memory. -/

namespace Sys2Proof.Machine

/-! ## A buffer in memory -/

theorem byteAddress_toNat (p : Addr) (i : Nat) : byteAddress p i = (p.toNat + i) % 2 ^ 64 := by
  simp [byteAddress]

theorem byteAddress_succ (p : Addr) (i : Nat) : byteAddress (p + 1) i = byteAddress p (i + 1) := by
  rw [byteAddress_toNat, byteAddress_toNat]
  simp
  omega

/-- The bytes outside a written buffer are as before. -/
theorem read_writeBytes_other (m : Memory) (p : Addr) (bytes : List Byte) (a : Nat)
    (h : OutsideBuffer p bytes.length a) : (m.writeBytes p bytes).read a = m.read a := by
  induction bytes generalizing m p with
  | nil => rfl
  | cons b rest ih =>
    simp only [Memory.writeBytes]
    rw [ih, read_write_other]
    · have := h 0 (by simp)
      simpa [byteAddress] using this
    · intro i hi
      rw [byteAddress_succ]
      exact h (i + 1) (by simpa using hi)

/-- The bytes of a written buffer that does not wrap onto itself are the bytes written. -/
theorem read_writeBytes_same (m : Memory) (p : Addr) (bytes : List Byte) (h : m.wf = true) (hn : bytes.length ≤ 2 ^ 64)
    (i : Nat) (hi : i < bytes.length) : (m.writeBytes p bytes).read (byteAddress p i) = bytes.getD i 0#8 := by
  induction bytes generalizing m p i with
  | nil => simp at hi
  | cons b rest ih =>
    simp only [Memory.writeBytes]
    have hl : rest.length + 1 ≤ 2 ^ 64 := by simpa using hn
    cases i with
    | zero =>
      rw [read_writeBytes_other]
      · have hb : byteAddress p 0 = p.toNat := by simp [byteAddress]
        rw [hb, read_write_same _ _ _ h]
        rfl
      · intro j hj he
        rw [byteAddress_succ, byteAddress_toNat, byteAddress_toNat] at he
        have := p.isLt
        omega
    | succ i =>
      have hi' : i < rest.length := by simpa using hi
      have := ih (m.write p.toNat b) (p + 1) (write_wf _ _ _ h) (by omega) i hi'
      rw [← byteAddress_succ]
      simpa using this

/-! ## Runs that may write memory -/

/-- `Ran` with system memory left out: what a data phase does to it is said beside. -/
structure Moved (s t : State) (frames : List (BitVec 48)) : Prop where
  host : t.host = s.host
  params : t.params = s.params
  control : t.control = s.control
  request : t.request = s.request
  callerDesc : t.callerDesc = s.callerDesc
  outcome : t.outcome = s.outcome
  payload : t.payload = s.payload
  card : t.card = s.card
  frames : s.host.framing = .coreCRC7 → wireTraceOf t.trace = wireTraceOf s.trace ++ frames

theorem Ran.moved {s t : State} {f : List (BitVec 48)} (h : Ran s t f) (hc : t.card = s.card)
    (hp : t.payload = s.payload) : Moved s t f :=
  ⟨h.host, h.params, h.control, h.request, h.callerDesc, h.outcome, hp, hc, h.frames⟩

theorem Moved.trans {s t u : State} {f g : List (BitVec 48)} (h : Moved s t f) (k : Moved t u g) : Moved s u (f ++ g) :=
  ⟨k.host.trans h.host, k.params.trans h.params, k.control.trans h.control, k.request.trans h.request,
    k.callerDesc.trans h.callerDesc, k.outcome.trans h.outcome, k.payload.trans h.payload, k.card.trans h.card,
    fun hf => by rw [k.frames (by rw [h.host]; exact hf), h.frames hf, List.append_assoc]⟩

/-! ## The phases of an attempt -/

/-- R262: the number of blocks the statements write out is the one the engine uses. -/
theorem transactionBlocks_eq (h : HostPort) (remaining : Nat) : transactionBlocks h remaining = chunkSize h remaining := rfl

/-- R264, R265: the command phase is one checked exchange. -/
theorem enterDataCommand_eq (dir : Direction) (n : Nat) (addr : Word) (d : Descriptor) (stack : List Frame) (s : State) :
    enterDataCommand dir n addr d stack s = startChecked (newDataCmd (dataIndex dir n) addr .r1 (some d)) stack s := by
  cases dir <;> simp only [enterDataCommand, dataIndex] <;> split <;> rfl

theorem dataCommand_result (dir : Direction) (n : Nat) (addr : Word) (d : Descriptor) (s : State) :
    (dataCommand dir n addr d s).2 = r1Result s := by
  unfold dataCommand; rw [checkedExchange_result _ _ (by simp)]

theorem dataCommand_ran (dir : Direction) (n : Nat) (addr : Word) (d : Descriptor) (s : State) :
    Ran s (dataCommand dir n addr d s).1 [frameOf (dataIndex dir n) addr] := by
  exact checkedExchange_ran _ s

theorem dataCommand_moved (dir : Direction) (n : Nat) (addr : Word) (d : Descriptor) (s : State) :
    Moved s (dataCommand dir n addr d s).1 [frameOf (dataIndex dir n) addr] := by
  refine (dataCommand_ran dir n addr d s).moved ?_ ?_ <;> simp [dataCommand]

theorem dataCommand_sameEnv (dir : Direction) (n : Nat) (addr : Word) (d : Descriptor) (s : State)
    (h : r1Result s = .well) : SameEnv (dataCommand dir n addr d s).1 (afterExchange true s) := by
  exact checkedExchange_sameEnv _ s ((r1Result_eq_well s).1 h).1 (by simp)

theorem SameEnv.afterData {s t : State} (h : SameEnv s t) (dir : Direction) (n : Nat) :
    SameEnv (afterData dir n s) (afterData dir n t) := by
  cases dir
  · exact h.takeRecvData n
  · exact h.takeSendData

/-- R64, R264, R265: the data phase with a transaction's descriptor. -/
theorem dataPhase_law (dir : Direction) (b : State) (p : Addr) (n : Nat) (s : State) :
    let d := blockDescriptor b dir p n
    Moved s (dataPhase dir d s).1 [] ∧ (dataPhase dir d s).2 = hostCode (dataAnswer dir s) ∧
    SameEnv (dataPhase dir d s).1 (afterData dir (BitVec.ofNat 64 (n * b.card.blockSize.toNat)).toNat s) ∧
    (dir = .write → (dataPhase dir d s).1.mem = s.mem) ∧
    (dir = .read → (dataPhase dir d s).1.mem =
      s.mem.writeBytes p (s.recvDataBytes (BitVec.ofNat 64 (n * b.card.blockSize.toNat)).toNat)) := by
  cases dir with
  | read =>
    refine ⟨⟨rfl, rfl, rfl, rfl, rfl, rfl, rfl, rfl, fun _ => ?_⟩, rfl, ⟨rfl, rfl, rfl⟩, by simp, fun _ => rfl⟩
    simp [dataPhase, hostRecvData, blockDescriptor, State.receive, State.log, wireTraceOf_cons, HostEvent.wire?,
      State.setMem, State.takeRecvData, State.setEnv]
  | write =>
    have h := hostSendData_ran (blockDescriptor b .write p n) s
    exact ⟨h.moved rfl rfl, rfl, ⟨rfl, rfl, rfl⟩, fun _ => rfl, by simp⟩

/-- R267: CMD12 goes out when it must, and its result is the phase's. -/
theorem stopAfter_law (n : Nat) (s : State) :
    (stopNeeded s.host n → Ran s (stopAfter n s).1 [0x4C0000000061#48] ∧ (stopAfter n s).2 = stopResult s) ∧
    (¬ stopNeeded s.host n → stopAfter n s = (s, .well)) ∧
    (stopAfter n s).1.card = s.card ∧ (stopAfter n s).1.payload = s.payload ∧ (stopAfter n s).1.mem = s.mem := by
  unfold stopNeeded stopAfter
  by_cases h : 1 < n ∧ s.host.autoCmd12 = false
  · rw [if_pos h]
    exact ⟨fun _ => ⟨stopTransmission_ran s, stopTransmission_result s⟩, fun hn => absurd h hn, by simp, by simp,
      (stopTransmission_ran s).mem⟩
  · rw [if_neg h]
    exact ⟨fun hy => absurd hy h, fun _ => rfl, rfl, rfl, rfl⟩

/-- R264, R265, R267: everything an attempt can do. -/
theorem attempt_law (cur : Cursor) (n : Nat) (s : State) :
    let f := frameOf (dataIndex cur.dir n) (s.card.address cur.block)
    let e := afterExchange true s
    let len := (BitVec.ofNat 64 (n * s.card.blockSize.toNat)).toNat
    (r1Result s ≠ .well → Moved s (attempt cur n s).1 [f] ∧ (attempt cur n s).1.mem = s.mem ∧
      (attempt cur n s).2 = .done (r1Result s)) ∧
    (r1Result s = .well →
      (stopNeeded s.host n → Moved s (attempt cur n s).1 [f, 0x4C0000000061#48]) ∧
      (¬ stopNeeded s.host n → Moved s (attempt cur n s).1 [f]) ∧
      (cur.dir = .write → (attempt cur n s).1.mem = s.mem) ∧
      (cur.dir = .read → (attempt cur n s).1.mem = s.mem.writeBytes cur.buffer (e.recvDataBytes len)) ∧
      (∀ x, dataAnswer cur.dir e = .error x → (attempt cur n s).2 = .dataFail) ∧
      (dataAnswer cur.dir e = .well →
        (stopNeeded s.host n → (attempt cur n s).2 = .done (stopResult (afterData cur.dir len e))) ∧
        (¬ stopNeeded s.host n → (attempt cur n s).2 = .done .well))) := by
  intro f e len
  set d := blockDescriptor s cur.dir cur.buffer n with hd
  set c := dataCommand cur.dir n (s.card.address cur.block) d s with hc
  have hres : c.2 = r1Result s := dataCommand_result ..
  have hmov : Moved s c.1 [f] := dataCommand_moved ..
  have hmem : c.1.mem = s.mem := (dataCommand_ran ..).mem
  have ha : attempt cur n s =
      if c.2 ≠ .well then (c.1, .done c.2)
      else if (dataPhase cur.dir d c.1).2 ≠ .well then ((stopAfter n (dataPhase cur.dir d c.1).1).1, .dataFail)
        else ((stopAfter n (dataPhase cur.dir d c.1).1).1, .done (stopAfter n (dataPhase cur.dir d c.1).1).2) := rfl
  refine ⟨fun h => ?_, fun h => ?_⟩
  · rw [ha, if_pos (by rw [hres]; exact h)]
    exact ⟨hmov, hmem, by rw [hres]⟩
  · have he : SameEnv c.1 e := dataCommand_sameEnv _ _ _ _ _ h
    obtain ⟨p1, p2, p3, p4, p5⟩ := dataPhase_law cur.dir s cur.buffer n c.1
    rw [← hd] at p1 p2 p3 p4 p5
    rw [he.dataAnswer] at p2
    set q := dataPhase cur.dir d c.1 with hq
    obtain ⟨s1, s2, s3, s4, s5⟩ := stopAfter_law n q.1
    have hh : q.1.host = s.host := p1.host.trans hmov.host
    rw [hh] at s1 s2
    rw [if_neg (by rw [hres, h]; simp)] at ha
    have hst : (attempt cur n s).1 = (stopAfter n q.1).1 := by rw [ha]; split <;> rfl
    have hsame := p3.trans (he.afterData cur.dir len)
    refine ⟨fun hs => ?_, fun hs => ?_, fun hw => ?_, fun hr => ?_, fun x hx => ?_, fun hx => ⟨fun hs => ?_, fun hs => ?_⟩⟩
    · rw [hst]; exact (hmov.trans p1).trans ((s1 hs).1.moved s3 s4)
    · rw [hst, s2 hs]; exact hmov.trans p1
    · rw [hst, s5, p4 hw, hmem]
    · rw [hst, s5, p5 hr, hmem, he.recvDataBytes]
    · rw [ha, if_pos (by rw [p2, hx]; exact errorCode_ne_well x)]
    · rw [ha, if_neg (by rw [p2, hx]; simp [hostCode])]
      rw [(s1 hs).2, hsame.stopResult]
    · rw [ha, if_neg (by rw [p2, hx]; simp [hostCode]), s2 hs]

/-! ## An erase chunk -/

/-- R268: everything the three commands of a chunk can do. -/
theorem eraseCommands_law (block n : Nat) (s : State) :
    let f1 := frameOf 32#6 (s.card.address block)
    let f2 := frameOf 33#6 (s.card.address (block + n - 1))
    let e1 := afterExchange true s
    let e2 := afterExchange true e1
    (eraseCommands block n s).1.card = s.card ∧ (eraseCommands block n s).1.payload = s.payload ∧
    (r1Result s ≠ .well → Ran s (eraseCommands block n s).1 [f1] ∧ (eraseCommands block n s).2 = r1Result s) ∧
    (r1Result s = .well → r1Result e1 ≠ .well → Ran s (eraseCommands block n s).1 [f1, f2] ∧
      (eraseCommands block n s).2 = r1Result e1) ∧
    (r1Result s = .well → r1Result e1 = .well → Ran s (eraseCommands block n s).1 [f1, f2, 0x6600000000A5#48] ∧
      (eraseCommands block n s).2 = r1Result e2) := by
  intro f1 f2 e1 e2
  set a := checkedExchange (newCmd 32#6 (s.card.address block) .r1) s with hadef
  have hac : a.1.card = s.card := checkedExchange_card _ s
  have hap : a.1.payload = s.payload := checkedExchange_payload _ s
  have har : a.2 = r1Result s := checkedExchange_result _ s (by simp)
  have harn : Ran s a.1 [f1] := checkedExchange_ran _ s
  set b := checkedExchange (newCmd 33#6 (s.card.address (block + n - 1)) .r1) a.1 with hbdef
  have hbc : b.1.card = s.card := (checkedExchange_card _ _).trans hac
  have hbp : b.1.payload = s.payload := (checkedExchange_payload _ _).trans hap
  have hbr : b.2 = r1Result a.1 := checkedExchange_result _ _ (by simp)
  have hbrn : Ran s b.1 [f1, f2] := harn.trans (checkedExchange_ran _ a.1)
  set c := checkedExchange (newCmd 38#6 0#32 .r1b) b.1 with hcdef
  have hcc : c.1.card = s.card := (checkedExchange_card _ _).trans hbc
  have hcp : c.1.payload = s.payload := (checkedExchange_payload _ _).trans hbp
  have hcr : c.2 = r1Result b.1 := checkedExchange_result _ _ (by simp)
  have hcrn : Ran s c.1 [f1, f2, 0x6600000000A5#48] := by
    have := hbrn.trans (checkedExchange_ran (newCmd 38#6 0#32 .r1b) b.1)
    rw [newCmd_wire, frame_cmd38] at this
    exact this
  have hg : eraseCommands block n s = tryThen a fun s' =>
      tryThen (checkedExchange (newCmd 33#6 (s'.card.address (block + n - 1)) .r1) s') fun s' =>
        checkedExchange (newCmd 38#6 0#32 .r1b) s' := rfl
  by_cases h1 : r1Result s = .well
  · rw [tryThen_well _ _ (har.trans h1), hac] at hg
    have ea : SameEnv a.1 e1 := checkedExchange_sameEnv _ s ((r1Result_eq_well s).1 h1).1 (by simp)
    rw [ea.r1Result] at hbr
    by_cases h2 : r1Result e1 = .well
    · rw [tryThen_well _ _ (hbr.trans h2)] at hg
      have eb : SameEnv b.1 e2 :=
        (checkedExchange_sameEnv _ a.1 (ea.nextSend.trans ((r1Result_eq_well e1).1 h2).1) (by simp)).trans
          (ea.afterExchange true)
      rw [eb.r1Result] at hcr
      rw [hg]
      exact ⟨hcc, hcp, fun h => absurd h1 h, fun _ h => absurd h2 h, fun _ _ => ⟨hcrn, hcr⟩⟩
    · rw [tryThen_fail _ _ (by rw [hbr]; exact h2)] at hg
      rw [hg]
      exact ⟨hbc, hbp, fun h => absurd h1 h, fun _ _ => ⟨hbrn, hbr⟩, fun _ h => absurd h h2⟩
  · rw [tryThen_fail _ _ (by rw [har]; exact h1)] at hg
    rw [hg]
    exact ⟨hac, hap, fun _ => ⟨harn, har⟩, fun h => absurd h h1, fun h => absurd h h1⟩

end Sys2Proof.Machine
end

