-- ==== Sys2Proof/Laws/Payloads.lean ====
section
/-! SUPPORT. What the controllers with a payload can do (42_command_controllers.md R189, R199, 43_function_switch.md R240), said
once. -/

namespace Sys2Proof.Machine

/-- A payload read writes no Card field. -/
theorem recvPayload_card (n : BitVec 32) (s : State) : (hostRecvData (payloadDescriptor n) s).1.card = s.card := by
  simp [hostRecvData, payloadDescriptor, State.receive]

/-- The payload read's bytes. -/
theorem recvPayload_bytes (n : BitVec 32) (s : State) : (hostRecvData (payloadDescriptor n) s).1.payloadBytes = s.recvDataBytes n.toNat := by
  have h : n.toNat % 18446744073709551616 = n.toNat := Nat.mod_eq_of_lt (by omega)
  simp [hostRecvData, payloadDescriptor, State.receive, State.payloadBytes, h]

/-- The environment after a payload read. -/
theorem recvPayload_sameEnv (n : BitVec 32) (s : State) : SameEnv (hostRecvData (payloadDescriptor n) s).1 (s.takeRecvData n.toNat) := by
  have h : n.toNat % 18446744073709551616 = n.toNat := Nat.mod_eq_of_lt (by omega)
  constructor <;> simp [hostRecvData, payloadDescriptor, State.receive, h]

/-- An exchange, the check of its R1 and the rest, as a checked exchange and the rest. -/
theorem tryThen_checkedExchange (c : CmdReg) (s : State) (k : State → State × Result) :
    (tryThen (exchange c s) fun s => tryThen (checkR1 s) k) = tryThen (checkedExchange c s) k := by
  unfold checkedExchange
  rcases tryThen_cases (exchange c s) checkR1 with ⟨h4, h5⟩ | ⟨h4, h5⟩
  · rw [h5, tryThen_well _ _ h4]
  · rw [h5, tryThen_fail _ _ h4, tryThen_fail _ _ h4]

/-- R189: what GetSCR can do once its payload is acquired: the prefix fails, the exchange or its R1 fails, the data phase fails, or
the SCR is stored. -/
theorem getScr_cases (s : State) (ha : s.acquireAnswer = true) :
    let e := s.takeAcquisition
    let d := afterExchange true (afterExchange true e)
    let f55 := frameOf 55#6 (s.card.rca ++ 0#16)
    (appPrefixResult e ≠ .well → Ran s (getScr s).1 [f55] ∧ (getScr s).1.card = s.card ∧ (getScr s).2 = appPrefixResult e) ∧
    (appPrefixResult e = .well → Ran s (getScr s).1 [f55, 0x7300000000C7#48] ∧
      (r1Result (afterExchange true e) ≠ .well → (getScr s).1.card = s.card ∧ (getScr s).2 = r1Result (afterExchange true e)) ∧
      (r1Result (afterExchange true e) = .well →
        (∀ x, d.recvDataAnswer = .error x → (getScr s).1.card = s.card ∧ (getScr s).2 = errorCode x) ∧
        (d.recvDataAnswer = .well → (getScr s).1.card = { s.card with scr := assembleScr (d.recvDataBytes 8), scrValid := true, version := versionOf (assembleScr (d.recvDataBytes 8)) } ∧
          (getScr s).2 = .well ∧ SameEnv (getScr s).1 (d.takeRecvData 8)))) := by
  intro e d f55
  have e0 : SameEnv (s.takeAcquisition.setPayload (some ⟨8, []⟩)) e := sameEnv_setPayload _ _
  set a := s.takeAcquisition.setPayload (some ⟨8, []⟩) with hadef
  have hacard : a.card = s.card := rfl
  have hsf : getScr s = release (getScrAcquired a) := by
    unfold getScr; rw [acquire_some _ _ ha]; rfl
  have hr0 : Ran s a [] := (ran_setEnv s _ _).then (ran_setPayload _ _)
  let c := newDataCmd 51#6 0#32 .r1 (some (payloadDescriptor scrLen))
  have hacq : getScrAcquired a = tryThen (appCmdPrefix a) fun s => tryThen (checkedExchange c s) fun s => tryThen (hostRecvData (payloadDescriptor scrLen) s) fun s =>
      (s.setCard { s.card with scr := assembleScr s.payloadBytes, scrValid := true, version := versionOf (assembleScr s.payloadBytes) }, .well) := by
    exact congrArg (tryThen (appCmdPrefix a)) (funext fun s => tryThen_checkedExchange c s _)
  have hp : Ran s (appCmdPrefix a).1 [f55] := hr0.trans (appCmdPrefix_ran a)
  have hpr : (appCmdPrefix a).2 = appPrefixResult e := by rw [appCmdPrefix_result, e0.appPrefixResult]
  rw [hsf]
  rcases tryThen_cases (appCmdPrefix a) (fun s => tryThen (checkedExchange c s) fun s => tryThen (hostRecvData (payloadDescriptor scrLen) s) fun s =>
      (s.setCard { s.card with scr := assembleScr s.payloadBytes, scrValid := true, version := versionOf (assembleScr s.payloadBytes) }, .well)) with ⟨h1, h2⟩ | ⟨h1, h2⟩
  swap
  · rw [h2] at hacq
    rw [hacq]
    exact ⟨fun _ => ⟨hp.then (ran_setPayload _ _), by simp [hacard], hpr⟩, fun h => absurd (hpr.trans h) h1⟩
  rw [h2] at hacq
  rw [hpr] at h1
  refine ⟨fun h => absurd h1 h, fun _ => ?_⟩
  have e1 := (appCmdPrefix_sameEnv a (e0.appPrefixResult.trans h1)).trans (e0.afterExchange true)
  set b := (appCmdPrefix a).1
  have hbc : b.card = s.card := by simp [b, hacard]
  have hres : (checkedExchange c b).2 = r1Result (afterExchange true e) := by rw [checkedExchange_result _ _ (by simp [c]), e1.r1Result]
  have hx : Ran s (checkedExchange c b).1 [f55, 0x7300000000C7#48] := by
    have := hp.trans (checkedExchange_ran c b)
    rw [newDataCmd_wire, frame_cmd51] at this
    exact this
  rcases tryThen_cases (checkedExchange c b) (fun s => tryThen (hostRecvData (payloadDescriptor scrLen) s) fun s =>
      (s.setCard { s.card with scr := assembleScr s.payloadBytes, scrValid := true, version := versionOf (assembleScr s.payloadBytes) }, .well)) with ⟨h3, h4⟩ | ⟨h3, h4⟩
  swap
  · rw [h4] at hacq
    rw [hacq]
    exact ⟨hx.then (ran_setPayload _ _), fun _ => ⟨by simp [hbc], hres⟩, fun h => absurd (hres.trans h) h3⟩
  rw [h4] at hacq
  rw [hres] at h3
  rw [hacq]
  have he := (checkedExchange_sameEnv c b (e1.nextSend.trans ((r1Result_eq_well _).1 h3).1) (by simp [c])).trans (e1.afterExchange true)
  have hq : (hostRecvData (payloadDescriptor scrLen) (checkedExchange c b).1).2 = hostCode d.recvDataAnswer := by
    rw [hostRecvData_result, he.recvDataAnswer]
  have hrr := hx.then (hostRecvData_payload_ran (payloadDescriptor scrLen) (checkedExchange c b).1 rfl)
  rcases tryThen_cases (hostRecvData (payloadDescriptor scrLen) (checkedExchange c b).1) (fun s =>
      (s.setCard { s.card with scr := assembleScr s.payloadBytes, scrValid := true, version := versionOf (assembleScr s.payloadBytes) }, .well)) with ⟨h5, h6⟩ | ⟨h5, h6⟩
  · rw [h6]
    refine ⟨(hrr.then (ran_setCard _ _)).then (ran_setPayload _ _), fun h => absurd h3 h, fun _ => ⟨fun x hx => ?_, fun hw => ?_⟩⟩
    · rw [hq, hx] at h5; exact absurd h5 (errorCode_ne_well x)
    · refine ⟨?_, rfl, ?_⟩
      · simp [recvPayload_card, recvPayload_bytes, he.recvDataBytes, hbc, scrLen]; exact ⟨rfl, rfl⟩
      · exact ((sameEnv_setPayload _ _).trans (sameEnv_setCard _ _)).trans ((recvPayload_sameEnv _ _).trans (he.takeRecvData _))
  · rw [h6]
    refine ⟨hrr.then (ran_setPayload _ _), fun h => absurd h3 h, fun _ => ⟨fun x hx => ?_, fun hw => ?_⟩⟩
    · exact ⟨by simp [recvPayload_card, hbc], by rw [release_result, hq, hx]; rfl⟩
    · rw [hq, hw] at h5; exact absurd rfl h5

/-- R199: what SelectFunction can do in range once its payload is acquired: the exchange or its R1 fails, the data phase fails,
or the tables are stored. -/
theorem selectFunction_cases (m : SwitchMode) (g k : Nat) (h : 1 ≤ g ∧ g ≤ 6 ∧ k ≤ 15) (s : State) (ha : s.acquireAnswer = true) :
    let e := s.takeAcquisition
    let fr := frameOf 6#6 (cmd6Arg m g k)
    Ran s (selectFunction m g k s).1 [fr] ∧ 
    (r1Result e ≠ .well → (selectFunction m g k s).1.card = s.card ∧ (selectFunction m g k s).2 = r1Result e) ∧
    (r1Result e = .well → (∀ x, (afterExchange true e).recvDataAnswer = .error x → (selectFunction m g k s).1.card = s.card ∧ (selectFunction m g k s).2 = errorCode x) ∧
      ((afterExchange true e).recvDataAnswer = .well → (selectFunction m g k s).1.card = s.card.withSwitchStatus ((afterExchange true e).recvDataBytes 64) ∧ (selectFunction m g k s).2 = .well ∧
        SameEnv (selectFunction m g k s).1 ((afterExchange true e).takeRecvData 64))) := by
  intro e fr
  have e0 : SameEnv (s.takeAcquisition.setPayload (some ⟨64, []⟩)) e := sameEnv_setPayload _ _
  set a := s.takeAcquisition.setPayload (some ⟨64, []⟩) with hadef
  have hacard : a.card = s.card := rfl
  have hsf : selectFunction m g k s = release (selectFunctionAcquired m g k a) := by
    unfold selectFunction; rw [if_neg (by omega)]; rw [acquire_some _ _ ha]; rfl
  have hr0 : Ran s a [] := (ran_setEnv s _ _).then (ran_setPayload _ _)
  let c := newDataCmd 6#6 (cmd6Arg m g k) .r1 (some (payloadDescriptor switchBlockLen))
  have hacq : selectFunctionAcquired m g k a = tryThen (checkedExchange c a) fun s => tryThen (hostRecvData (payloadDescriptor switchBlockLen) s) fun s => (s.setCard (s.card.withSwitchStatus s.payloadBytes), .well) := by
    unfold selectFunctionAcquired
    exact tryThen_checkedExchange c a _
  have hres : (checkedExchange c a).2 = r1Result e := by rw [checkedExchange_result _ _ (by simp [c]), e0.r1Result]
  have hx : Ran s (checkedExchange c a).1 [fr] := hr0.trans (checkedExchange_ran c a)
  rw [hsf]
  rcases tryThen_cases (checkedExchange c a) _ with ⟨h1, h2⟩ | ⟨h1, h2⟩
  · rw [h2] at hacq
    rw [hacq]
    have he := (checkedExchange_sameEnv c a (e0.nextSend.trans ((r1Result_eq_well e).1 (hres ▸ h1)).1) (by simp [c])).trans (e0.afterExchange true)
    have hq : (hostRecvData (payloadDescriptor switchBlockLen) (checkedExchange c a).1).2 = hostCode (afterExchange true e).recvDataAnswer := by
      rw [hostRecvData_result, he.recvDataAnswer]
    have hrr := hx.then (hostRecvData_payload_ran (payloadDescriptor switchBlockLen) (checkedExchange c a).1 rfl)
    rcases tryThen_cases (hostRecvData (payloadDescriptor switchBlockLen) (checkedExchange c a).1) _ with ⟨h3, h4⟩ | ⟨h3, h4⟩
    · rw [h4]
      refine ⟨(hrr.then (ran_setCard _ _)).then (ran_setPayload _ _), fun h => absurd (hres ▸ h1) h, fun _ => ⟨fun x hx => ?_, fun hw => ?_⟩⟩
      · rw [hq, hx] at h3; exact absurd h3 (errorCode_ne_well x)
      · refine ⟨?_, rfl, ?_⟩
        · simp [recvPayload_card, recvPayload_bytes, he.recvDataBytes, hacard]; rfl
        · exact ((sameEnv_setPayload _ _).trans (sameEnv_setCard _ _)).trans ((recvPayload_sameEnv _ _).trans (he.takeRecvData _))
    · rw [h4]
      refine ⟨hrr.then (ran_setPayload _ _), fun h => absurd (hres ▸ h1) h, fun _ => ⟨fun x hx => ?_, fun hw => ?_⟩⟩
      · refine ⟨by simp [recvPayload_card, hacard], ?_⟩
        rw [release_result, hq, hx]; rfl
      · rw [hq, hw] at h3; exact absurd rfl h3
  · rw [h2] at hacq
    rw [hacq]
    refine ⟨hx.then (ran_setPayload _ _), fun h => ⟨by simp [hacard], hres⟩, fun h => absurd (hres.trans h) h1⟩

/-- R240: a phase of the negotiation that the environment lets succeed. -/
theorem switchPhase_run (s e : State) (p : List Byte) (g k : Nat) (h : 1 ≤ g ∧ g ≤ 6 ∧ k ≤ 15) (hp : SwitchPhase s p e) (m : SwitchMode) (t : State) (ht : SameEnv t s) :
    (setBlockLength switchBlockLen t).2 = .well ∧ 
    let u := (setBlockLength switchBlockLen t).1
    (selectFunction m g k u).2 = .well ∧ (selectFunction m g k u).1.card = t.card.withSwitchStatus p ∧ Ran t (selectFunction m g k u).1 [0x5000000040F1#48, frameOf 6#6 (cmd6Arg m g k)] ∧ SameEnv (selectFunction m g k u).1 e := by
  obtain ⟨p1, p2, p3, p4, p5, p6⟩ := hp
  refine ⟨by rw [setBlockLength_result, ht.r1Result, p1], ?_⟩
  intro u
  have hu : SameEnv u (afterExchange true s) := (setBlockLength_sameEnv _ t (ht.nextSend.trans ((r1Result_eq_well s).1 p1).1)).trans (ht.afterExchange true)
  obtain ⟨a, b, c⟩ := selectFunction_cases m g k h u (hu.acquireAnswer.trans p2)
  have hu2 := hu.takeAcquisition
  have hu3 := hu2.afterExchange true
  obtain ⟨d1, d2, d3⟩ := (c (hu2.r1Result.trans p3)).2 (hu3.recvDataAnswer.trans p4)
  refine ⟨d2, ?_, ?_, ?_⟩
  · rw [d1, hu3.recvDataBytes, p5, setBlockLength_card]
  · have := (setBlockLength_ran switchBlockLen t).trans a
    rw [frame_cmd16_64] at this
    exact this
  · rw [p6]; exact d3.trans (hu3.takeRecvData _)

/-- The entries of the stored tables. -/
theorem withSwitchStatus_get (c : Card) (p : List Byte) (g : Nat) (h : 1 ≤ g ∧ g ≤ 6) : (c.withSwitchStatus p).fnSupport.get g = fnSupportOf p g ∧ (c.withSwitchStatus p).fnCurrent.get g = fnCurrentOf p g := by
  obtain ⟨h1, h2⟩ := h
  interval_cases g <;> exact ⟨rfl, rfl⟩

/-! ## The failures of the negotiator (R244) -/

theorem SwitchPhaseFails.ne_well {s : State} {r : Result} {sent : Bool} (h : SwitchPhaseFails s r sent) : r ≠ .well := by
  cases h with
  | length h => exact h
  | acquired => simp
  | command _ _ l => exact l
  | data x => exact errorCode_ne_well x

theorem selectFunction_payload (m : SwitchMode) (g k : Nat) (s : State) (h : s.payload = none) :
    (selectFunction m g k s).1.payload = none := by
  unfold selectFunction
  split
  · exact h
  · dsimp only
    split
    · next ha => unfold acquire at ha ⊢; split at ha <;> simp_all
    · rfl

/-- R244: a phase of the negotiation that fails. -/
theorem switchPhase_fails (s : State) (r : Result) (sent : Bool) (g k : Nat) (h : 1 ≤ g ∧ g ≤ 6 ∧ k ≤ 15)
    (hp : SwitchPhaseFails s r sent) (m : SwitchMode) (t : State) (ht : SameEnv t s) :
    let u := tryThen (setBlockLength switchBlockLen t) (selectFunction m g k)
    u.2 = r ∧ u.1.card = t.card ∧
      Ran t u.1 (0x5000000040F1#48 :: if sent then [frameOf 6#6 (cmd6Arg m g k)] else []) ∧
      (t.payload = none → u.1.payload = none) := by
  have hl := setBlockLength_result switchBlockLen t
  rw [ht.r1Result] at hl
  have hr := setBlockLength_ran switchBlockLen t
  rw [frame_cmd16_64] at hr
  have hpay : t.payload = none → (setBlockLength switchBlockLen t).1.payload = none := fun h => by
    rw [setBlockLength_payload]; exact h
  intro u
  by_cases h1 : r1Result s = .well
  · have hu : u = selectFunction m g k (setBlockLength switchBlockLen t).1 := tryThen_well _ _ (hl.trans h1)
    have he : SameEnv (setBlockLength switchBlockLen t).1 (afterExchange true s) :=
      (setBlockLength_sameEnv _ t (ht.nextSend.trans ((r1Result_eq_well s).1 h1).1)).trans (ht.afterExchange true)
    rw [hu]
    have hp2 : t.payload = none → (selectFunction m g k (setBlockLength switchBlockLen t).1).1.payload = none :=
      fun h => selectFunction_payload _ _ _ _ (hpay h)
    cases hp with
    | length h => exact absurd h1 h
    | acquired _ ha =>
      have hg : selectFunction m g k (setBlockLength switchBlockLen t).1 =
          ((setBlockLength switchBlockLen t).1.takeAcquisition, .memErr) := by
        unfold selectFunction; rw [if_neg (by omega), acquire_none _ _ (he.acquireAnswer.trans ha)]; rfl
      refine ⟨by rw [hg], by rw [hg]; exact setBlockLength_card _ _, ?_, hp2⟩
      rw [hg]
      exact hr.then (ran_setEnv _ _ _)
    | command _ ha hc =>
      obtain ⟨a, b, -⟩ := selectFunction_cases m g k h _ (he.acquireAnswer.trans ha)
      rw [he.takeAcquisition.r1Result] at b
      exact ⟨(b hc).2, (b hc).1.trans (setBlockLength_card _ _), hr.trans a, hp2⟩
    | data x _ ha hc hd =>
      obtain ⟨a, -, c⟩ := selectFunction_cases m g k h _ (he.acquireAnswer.trans ha)
      rw [he.takeAcquisition.r1Result] at c
      obtain ⟨c1, c2⟩ := (c hc).1 x (by rw [(he.takeAcquisition.afterExchange true).recvDataAnswer]; exact hd)
      exact ⟨c2, c1.trans (setBlockLength_card _ _), hr.trans a, hp2⟩
  · have hu : u = setBlockLength switchBlockLen t := tryThen_fail _ _ (hl ▸ h1)
    rw [hu]
    cases hp with
    | length h => exact ⟨hl, setBlockLength_card _ _, hr, hpay⟩
    | acquired h => exact absurd h h1
    | command h => exact absurd h h1
    | data _ h => exact absurd h h1

end Sys2Proof.Machine
end

