-- ==== Sys2Proof/Laws/Scripts.lean ====
section
/-! SUPPORT. Answers that stand in a script: what the next exchange gets, and what is left of each script after it. -/

namespace Sys2Proof.Machine

theorem afterFraming_scripts (s : State) :
    (afterFraming s).env.sendCommands = s.env.sendCommands ∧ (afterFraming s).env.responses = s.env.responses ∧
    (afterFraming s).env.sendDatas = s.env.sendDatas ∧ (afterFraming s).env.recvDatas = s.env.recvDatas ∧
    (afterFraming s).env.voltages = s.env.voltages ∧ (afterFraming s).env.acquisitions = s.env.acquisitions := by
  unfold afterFraming
  split <;> exact ⟨rfl, rfl, rfl, rfl, rfl, rfl⟩

/-- A scripted `send_command` answers the head of its script. -/
theorem nextSend_script (s : State) (r : HostResult) (l : List HostResult) (h : s.env.sendCommands = r :: l) :
    nextSend s = r := by
  simp [nextSend, State.sendCommandAnswer, (afterFraming_scripts s).1, h]

/-- A scripted `recv_response` answers the head of its script. -/
theorem nextResponse_script (s : State) (w : ResponseWords) (l : List ResponseWords) (h : s.env.responses = w :: l) :
    nextResponse s = w := by
  simp [nextResponse, State.responseAnswer, State.takeSendCommand, State.setEnv, (afterFraming_scripts s).2.1, h]

/-- What an exchange leaves of the scripts. -/
theorem afterExchange_scripts (reads : Bool) (s : State) :
    (afterExchange reads s).env.sendCommands = s.env.sendCommands.tail ∧
    (afterExchange reads s).env.responses = (if reads then s.env.responses.tail else s.env.responses) ∧
    (afterExchange reads s).env.sendDatas = s.env.sendDatas ∧ (afterExchange reads s).env.recvDatas = s.env.recvDatas ∧
    (afterExchange reads s).env.voltages = s.env.voltages ∧
    (afterExchange reads s).env.acquisitions = s.env.acquisitions := by
  obtain ⟨h1, h2, h3, h4, h5, h6⟩ := afterFraming_scripts s
  cases reads <;>
    simp [afterExchange, State.takeSendCommand, State.takeResponse, State.setEnv, h1, h2, h3, h4, h5, h6]

/-- A scripted exchange whose R1 is in order. -/
theorem r1Result_script (s : State) (w : ResponseWords) (sc : List HostResult) (rs : List ResponseWords)
    (h : s.env.sendCommands = .well :: sc) (h2 : s.env.responses = w :: rs) (h3 : r1Ok w.w0 = true) : r1Result s = .well := by
  rw [r1Result_well s (nextSend_script s _ _ h), nextResponse_script s _ _ h2, if_pos h3]

/-- A scripted CMD55 that succeeds. -/
theorem appPrefixResult_script (s : State) (w : ResponseWords) (sc : List HostResult) (rs : List ResponseWords)
    (h : s.env.sendCommands = .well :: sc) (h2 : s.env.responses = w :: rs) (h3 : r1Ok w.w0 = true)
    (h4 : w.w0.getLsbD 5 = true) : appPrefixResult s = .well := by
  simp only [appPrefixResult, r1Result_script s w sc rs h h2 h3, nextResponse_script s _ _ h2, h4, if_true]

/-- Scripted bytes of the right length are the bytes received. -/
theorem recvDataBytes_script (s : State) (r : HostResult) (p : List Byte) (l : List (HostResult × List Byte))
    (h : s.env.recvDatas = (r, p) :: l) : s.recvDataBytes p.length = p := by
  apply List.ext_getElem
  · simp [State.recvDataBytes]
  · intro i h1 h2
    simp [State.recvDataBytes, h, List.getElem?_eq_getElem h2]

theorem recvDataAnswer_script (s : State) (r : HostResult) (p : List Byte) (l : List (HostResult × List Byte))
    (h : s.env.recvDatas = (r, p) :: l) : s.recvDataAnswer = r := by
  simp [State.recvDataAnswer, h]

end Sys2Proof.Machine
end

