-- ==== Sys2Proof/Laws/Lifecycle.lean ====
section
/-! SUPPORT. What the controllers that the lifecycle sequences (45_lifecycle.md) can do. -/

namespace Sys2Proof.Machine

/-- R190: what a deselect does, whatever it answers. -/
theorem deselect_law (s : State) : Ran s (selectCard false s).1 [0x470000000083#48] ∧ (selectCard false s).1.card = s.card ∧ SameEnv (selectCard false s).1 (afterExchange false s) ∧ (selectCard false s).1.payload = s.payload := by
  have h : (selectCard false s).1 = (exchange (newCmd 7#6 0#32 .none) s).1 := by
    unfold selectCard
    have h2 : selectResponse (selectArg s.card false) = .none := by
      show selectResponse 0#32 = .none
      decide
    simp only [h2]
    rcases tryThen_cases (exchange (newCmd 7#6 (selectArg s.card false) .none) s) (fun s => if ResponseType.none = ResponseType.r1 then checkR1 s else (s, .well)) with ⟨h3, h4⟩ | ⟨h3, h4⟩ <;> rw [h4] <;> rfl
  rw [h]
  have := exchange_ran (newCmd 7#6 0#32 .none) s
  rw [newCmd_wire, frame_deselect] at this
  have he := exchange_sameEnv (newCmd 7#6 0#32 .none) s
  have h0 : (newCmd 7#6 0#32 .none).responseType = .none := rfl
  simp only [h0, ne_eq, not_true_eq_false, and_false, decide_false] at he
  exact ⟨this, by simp, he, by simp⟩

/-- R181: what CMD0 can do. -/
theorem goIdle_law (s : State) : Ran s (goIdle s).1 [0x400000000095#48] ∧ (goIdle s).2 = hostCode (nextSend s.takeResponse) ∧ (goIdle s).1.payload = s.payload ∧
    (goIdle s).1.card = (if nextSend s.takeResponse = .well then { s.card with mode := ModeName.idle.bits, rca := 0#16 } else s.card) ∧
    SameEnv (goIdle s).1 (afterExchange false s.takeResponse) := by
  have hr := hostRecvResponse_ran (s.setCmd (newCmd 0#6 0#32 .none))
  have he : SameEnv (hostRecvResponse (s.setCmd (newCmd 0#6 0#32 .none))) s.takeResponse :=
    ((sameEnv_log _ _).trans (sameEnv_setCmd _ _)).trans ((sameEnv_setCmd _ _).takeResponse)
  have hx := exchange_ran (newCmd 0#6 0#32 .none) (hostRecvResponse (s.setCmd (newCmd 0#6 0#32 .none)))
  rw [newCmd_wire, frame_cmd0] at hx
  have hran := ((ran_setCmd s _).then hr).trans hx
  have henv := (exchange_sameEnv (newCmd 0#6 0#32 .none) (hostRecvResponse (s.setCmd (newCmd 0#6 0#32 .none)))).trans (he.afterExchange _)
  have h0 : (newCmd 0#6 0#32 .none).responseType = .none := rfl
  simp only [h0, ne_eq, not_true_eq_false, and_false, decide_false] at henv
  rcases tryThen_cases (exchange (newCmd 0#6 0#32 .none) (hostRecvResponse (s.setCmd (newCmd 0#6 0#32 .none)))) (fun s => ((s.setMode .idle).setCard { (s.setMode .idle).card with rca := 0#16 }, .well)) with ⟨h1, h2⟩ | ⟨h1, h2⟩
  · change goIdle s = _ at h2
    rw [h2]
    rw [exchange_result, he.nextSend] at h1
    refine ⟨(hran.then (ran_setMode _ _)).then (ran_setCard _ _), h1.symm, by simp [State.setMode, hostRecvResponse], ?_, ((sameEnv_setCard _ _).trans (sameEnv_setCard _ _)).trans henv⟩
    rw [hostCode_eq_well] at h1
    simp [h1, State.setMode, hostRecvResponse]
  · change goIdle s = _ at h2
    rw [h2]
    rw [exchange_result, he.nextSend, ne_eq, hostCode_eq_well] at h1
    refine ⟨hran, by rw [exchange_result, he.nextSend], by simp [hostRecvResponse], ?_, henv⟩
    simp [h1, hostRecvResponse]

/-- R91, R95: the loop's own argument has every bit R91 marks 0 clear. -/
theorem acmd41Sent_arg (s : State) (v2 : Bool) : acmd41Sent (acmd41Arg s v2) = acmd41Arg s v2 := by
  unfold acmd41Sent acmd41Arg acmd41Mask
  generalize s.params.ocrVoltageWindow = w
  apply BitVec.eq_of_getLsbD_eq
  intro i hi
  have h : ∀ (i : Fin 32), (0x41FFFFFF#32).getLsbD i.val = ((0x00FFFFFF#32).getLsbD i.val || (0x40000000#32).getLsbD i.val || (0x01000000#32).getLsbD i.val) := by decide
  have := h ⟨i, hi⟩
  simp only at this
  by_cases h1 : v2 = true <;> by_cases h2 : s.host.supports1V8 = true <;> simp [h1, h2, BitVec.getLsbD_and, BitVec.getLsbD_or, this] <;>
  (generalize w.getLsbD i = a; generalize (16777215#32).getLsbD i = b; generalize (1073741824#32).getLsbD i = c; generalize (16777216#32).getLsbD i = d; revert a b c d; decide)

/-- R184: what ACMD41 can do. -/
theorem sendOpCond_law (a : Word) (s : State) :
    (appPrefixResult s ≠ .well → Ran s (sendOpCond a s).1 [frameOf 55#6 (s.card.rca ++ 0#16)] ∧ (sendOpCond a s).2 = appPrefixResult s ∧ (sendOpCond a s).1.card = s.card ∧ (sendOpCond a s).1.payload = s.payload) ∧
    (appPrefixResult s = .well → Ran s (sendOpCond a s).1 [frameOf 55#6 (s.card.rca ++ 0#16), frameOf 41#6 (acmd41Sent a)] ∧ (sendOpCond a s).1.payload = s.payload ∧
      (∀ e, nextSend (afterExchange true s) = .error e → (sendOpCond a s).2 = errorCode e ∧ (sendOpCond a s).1.card = s.card) ∧
      (nextSend (afterExchange true s) = .well → 
        SameEnv (sendOpCond a s).1 (afterExchange true (afterExchange true s)) ∧
        ((nextResponse (afterExchange true s)).w0.getLsbD 31 = false → (sendOpCond a s).2 = .retry ∧ (sendOpCond a s).1.card = s.card) ∧
        ((nextResponse (afterExchange true s)).w0.getLsbD 31 = true → (sendOpCond a s).2 = .well ∧ (sendOpCond a s).1.card = { s.card with ocr := (nextResponse (afterExchange true s)).w0 }))) := by
  have hp := appCmdPrefix_ran s
  refine ⟨fun h => ?_, fun h => ?_⟩
  · have hg : sendOpCond a s = _ := tryThen_fail _ _ (by rw [appCmdPrefix_result]; exact h)
    rw [hg]
    exact ⟨hp, appCmdPrefix_result s, by simp, by simp⟩
  · have hg : sendOpCond a s = _ := tryThen_well _ _ (by rw [appCmdPrefix_result]; exact h)
    have he := appCmdPrefix_sameEnv s h
    have hx := hp.trans (exchange_ran (newCmd 41#6 (acmd41Sent a) .r3) (appCmdPrefix s).1)
    rw [hg]
    cases h1 : nextSend (afterExchange true s) with
    | error e =>
      rw [tryThen_fail _ _ (by rw [exchange_result, he.nextSend, h1]; exact errorCode_ne_well e)]
      exact ⟨hx, by simp, fun e' he' => by rw [exchange_result, he.nextSend, h1]; cases he'; exact ⟨rfl, by simp⟩, by simp⟩
    | well =>
      have hs := (exchange_sameEnv_reads (newCmd 41#6 (acmd41Sent a) .r3) _ (he.nextSend.trans h1) (by simp)).trans (he.afterExchange true)
      rw [tryThen_well _ _ (by rw [exchange_result, he.nextSend, h1]; rfl), exchange_resp0 _ _ (he.nextSend.trans h1) (by simp), he.nextResponse]
      cases hb : (nextResponse (afterExchange true s)).w0.getLsbD 31
      · simp only [ocrPoweredUp, hb, if_true]
        exact ⟨hx, by simp, by simp, fun _ => ⟨hs, by simp, by simp⟩⟩
      · simp only [ocrPoweredUp, hb]
        exact ⟨hx.then (ran_setCard _ _), by simp, by simp, fun _ => ⟨(sameEnv_setCard _ _).trans hs, by simp, by simp⟩⟩

/-- R190: a select at a non-zero RCA is a checked exchange. -/
theorem selectCard_true (s : State) (h : s.card.rca ≠ 0#16) :
    selectCard true s = checkedExchange (newCmd 7#6 s.card.rcaArg .r1) s := by
  unfold selectCard checkedExchange
  have h1 : selectArg s.card true = s.card.rcaArg := rfl
  have h2 : selectResponse s.card.rcaArg = .r1 := by simp [selectResponse, Card.rcaArg, rca16_high, h]
  simp only [h1, h2]
  rfl

/-- R186, R191: what a CID read can do. -/
theorem readCid_law (i : BitVec 6) (a : Word) (s : State) :
    Ran s (readCid (newCmd i a .r2) s).1 [frameOf i a] ∧ (readCid (newCmd i a .r2) s).2 = hostCode (nextSend s) ∧
    (readCid (newCmd i a .r2) s).1.payload = s.payload ∧
    (nextSend s = .well →
      (readCid (newCmd i a .r2) s).1.card = { s.card with cid := registerOfWords (nextResponse s), cidValid := true } ∧
      SameEnv (readCid (newCmd i a .r2) s).1 (afterExchange true s)) ∧
    (nextSend s ≠ .well → (readCid (newCmd i a .r2) s).1.card = s.card) := by
  have hx := exchange_ran (newCmd i a .r2) s
  cases h : nextSend s with
  | well =>
    have hg : readCid (newCmd i a .r2) s = _ := tryThen_well _ _ (by rw [exchange_result, h]; rfl)
    rw [hg]
    refine ⟨hx.then (ran_setCard _ _), rfl, by simp, fun _ => ⟨?_, ?_⟩, fun h => absurd rfl h⟩
    · rw [setCard_card, exchange_response _ _ h (by simp)]; simp
    · exact (sameEnv_setCard _ _).trans (exchange_sameEnv_reads _ s h (by simp))
  | error e =>
    have hg : readCid (newCmd i a .r2) s = _ := tryThen_fail _ _ (by rw [exchange_result, h]; exact errorCode_ne_well e)
    rw [hg]
    exact ⟨hx, by rw [exchange_result, h], by simp, fun h => by simp at h, fun _ => by simp⟩

/-- R187: what CMD3 can do. -/
theorem issueRca_law (s : State) :
    Ran s (issueRca s).1 [0x430000000021#48] ∧ (issueRca s).1.payload = s.payload ∧
    (∀ e, nextSend s = .error e → (issueRca s).2 = errorCode e ∧ (issueRca s).1.card = s.card) ∧
    (nextSend s = .well →
      SameEnv (issueRca s).1 (afterExchange true s) ∧
      ((nextResponse s).w0.extractLsb 15 13 = 0#3 → (issueRca s).2 = .well ∧
        (issueRca s).1.card = { s.card with rca := (nextResponse s).w0.extractLsb 31 16 }) ∧
      ((nextResponse s).w0.extractLsb 15 13 ≠ 0#3 → (issueRca s).2 = .anyError ∧ (issueRca s).1.card = s.card)) := by
  have hx := exchange_ran (newCmd 3#6 0#32 .r6) s
  rw [newCmd_wire, frame_cmd3] at hx
  cases h : nextSend s with
  | well =>
    have hg : issueRca s = _ := tryThen_well _ _ (by rw [exchange_result, h]; rfl)
    have he := exchange_sameEnv_reads (newCmd 3#6 0#32 .r6) s h (by simp)
    rw [exchange_resp0 _ _ h (by simp)] at hg
    by_cases h1 : (nextResponse s).w0.extractLsb 15 13 = 0#3
    · simp only [r6Ok, h1, decide_true, Bool.true_eq_false, if_false] at hg
      rw [hg]
      exact ⟨hx.then (ran_setCard _ _), by simp, by simp, fun _ => ⟨(sameEnv_setCard _ _).trans he,
        fun _ => ⟨rfl, by simp [r6Rca]⟩, fun h => absurd h1 h⟩⟩
    · simp only [r6Ok, h1, decide_false, if_true] at hg
      rw [hg]
      exact ⟨hx, by simp, by simp, fun _ => ⟨he, fun h => absurd h h1, fun _ => ⟨rfl, by simp⟩⟩⟩
  | error e =>
    have hg : issueRca s = _ := tryThen_fail _ _ (by rw [exchange_result, h]; exact errorCode_ne_well e)
    rw [hg]
    refine ⟨hx, by simp, fun e' he => ?_, by simp⟩
    cases he
    exact ⟨by rw [exchange_result, h]; rfl, by simp⟩

/-- R188: what CMD9 can do. -/
theorem getCsd_law (s : State) :
    Ran s (getCsd s).1 [frameOf 9#6 (s.card.rca ++ 0#16)] ∧ (getCsd s).1.payload = s.payload ∧
    (∀ e, nextSend s = .error e → (getCsd s).2 = errorCode e ∧ (getCsd s).1.card = s.card) ∧
    (nextSend s = .well →
      SameEnv (getCsd s).1 (afterExchange true s) ∧
      (csdFields (registerOfWords (nextResponse s)) = none → (getCsd s).2 = .notSupported ∧ (getCsd s).1.card = s.card) ∧
      ∀ f, csdFields (registerOfWords (nextResponse s)) = some f → (getCsd s).2 = .well ∧
        (getCsd s).1.card =
          { s.card with csd := registerOfWords (nextResponse s), csdValid := true }.withGeometry f.geometry) := by
  have hx := exchange_ran (newCmd 9#6 s.card.rcaArg .r2) s
  cases h : nextSend s with
  | well =>
    have hg : getCsd s = _ := tryThen_well _ _ (by rw [exchange_result, h]; rfl)
    have he := exchange_sameEnv_reads (newCmd 9#6 s.card.rcaArg .r2) s h (by simp)
    rw [exchange_response _ _ h (by simp)] at hg
    cases hf : csdFields (registerOfWords (nextResponse s)) with
    | none =>
      simp only [hf] at hg
      rw [hg]
      exact ⟨hx, by simp, by simp, fun _ => ⟨he, by simp, by simp⟩⟩
    | some f =>
      simp only [hf] at hg
      rw [hg]
      refine ⟨hx.then (ran_setCard _ _), by simp, by simp, fun _ => ⟨(sameEnv_setCard _ _).trans he, by simp, fun f' hf' => ?_⟩⟩
      cases hf'
      exact ⟨rfl, by rw [setCard_card]; simp⟩
  | error e =>
    have hg : getCsd s = _ := tryThen_fail _ _ (by rw [exchange_result, h]; exact errorCode_ne_well e)
    rw [hg]
    refine ⟨hx, by simp, fun e' he => ?_, by simp⟩
    cases he
    exact ⟨by rw [exchange_result, h]; rfl, by simp⟩

/-- R301: what `checkInterface` checks. -/
theorem interfaceSupplied_iff (h : HostPort) : InterfaceSupplied h ↔ checkInterface h = true := by
  refine ⟨fun k => ?_, fun k => ?_⟩
  · obtain ⟨a, b, c, d, e, f, g, i, j, l⟩ := k
    unfold checkInterface
    cases hf : h.framing <;> simp [a, b, c, d, e, f, g, i, j]
    exact l hf
  · simp only [checkInterface, Bool.and_eq_true, Bool.or_eq_true, decide_eq_true_eq] at k
    obtain ⟨⟨⟨⟨⟨⟨⟨⟨⟨a, b⟩, c⟩, d⟩, e⟩, f⟩, g⟩, i⟩, j⟩, l⟩ := k
    exact ⟨a, b, c, d, e, f, g, i, j, fun hf => l.resolve_left (by simp [hf])⟩

end Sys2Proof.Machine
end

