-- ==== Sys2Proof/Laws/Sequencer.lean ====
section
/-! SUPPORT. The beginning of an exchange (10_state.md R50: `startExchange`), said once: what it leaves as it was, and where it
stands; and the same of an acquisition. -/

namespace Sys2Proof.Machine

variable (c : CmdReg) (K : List Frame) (s : State) (n : Nat)

/-- The first host-port call of an exchange. -/
theorem startExchange_control :
    (startExchange c K s).control = .running .sendCommand K ∨ (startExchange c K s).control = .running .addFraming K := by
  unfold startExchange; split <;> simp

/-- Under the core's framer an exchange starts with its framed register. -/
theorem startExchange_coreCRC7 (h : s.host.framing = .coreCRC7) :
    startExchange c K s = (s.setCmd c.framed).goto .sendCommand K := by
  unfold startExchange; rw [h]

/-- Under the host's framer it starts with `add_framing`. -/
theorem startExchange_hostOverride (h : s.host.framing = .hostOverride) :
    startExchange c K s = (s.setCmd c).goto .addFraming K := by
  unfold startExchange; rw [h]

/-- Where an exchange begins. -/
@[simp] theorem startExchange_point : (startExchange c K s).control = .running (exchangeCall s) K := by
  unfold startExchange exchangeCall; cases s.host.framing <;> rfl

/-- The command register an exchange begins with. -/
theorem startExchange_cmd :
    (startExchange c K s).cmd = if s.host.framing = .coreCRC7 then c.framed else c := by
  unfold startExchange; cases s.host.framing <;> rfl

@[simp] theorem startExchange_host : (startExchange c K s).host = s.host := by unfold startExchange; split <;> rfl
@[simp] theorem startExchange_params : (startExchange c K s).params = s.params := by unfold startExchange; split <;> rfl
@[simp] theorem startExchange_card : (startExchange c K s).card = s.card := by unfold startExchange; split <;> rfl
@[simp] theorem startExchange_payload : (startExchange c K s).payload = s.payload := by unfold startExchange; split <;> rfl
@[simp] theorem startExchange_mem : (startExchange c K s).mem = s.mem := by unfold startExchange; split <;> rfl
@[simp] theorem startExchange_request : (startExchange c K s).request = s.request := by unfold startExchange; split <;> rfl
@[simp] theorem startExchange_callerDesc : (startExchange c K s).callerDesc = s.callerDesc := by unfold startExchange; split <;> rfl
@[simp] theorem startExchange_outcome : (startExchange c K s).outcome = s.outcome := by unfold startExchange; split <;> rfl
@[simp] theorem startExchange_trace : (startExchange c K s).trace = s.trace := by unfold startExchange; split <;> rfl
@[simp] theorem startExchange_env : (startExchange c K s).env = s.env := by unfold startExchange; split <;> rfl
@[simp] theorem startExchange_draws : (startExchange c K s).draws = s.draws := by unfold startExchange; split <;> rfl

@[simp] theorem startExchange_responseType : (startExchange c K s).cmd.responseType = c.responseType := by
  unfold startExchange; split <;> rfl

@[simp] theorem acquire_host : (acquire n s).1.host = s.host := by unfold acquire; split <;> rfl
@[simp] theorem acquire_params : (acquire n s).1.params = s.params := by unfold acquire; split <;> rfl
@[simp] theorem acquire_card : (acquire n s).1.card = s.card := by unfold acquire; split <;> rfl
@[simp] theorem acquire_cmd : (acquire n s).1.cmd = s.cmd := by unfold acquire; split <;> rfl
@[simp] theorem acquire_mem : (acquire n s).1.mem = s.mem := by unfold acquire; split <;> rfl
@[simp] theorem acquire_request : (acquire n s).1.request = s.request := by unfold acquire; split <;> rfl
@[simp] theorem acquire_callerDesc : (acquire n s).1.callerDesc = s.callerDesc := by unfold acquire; split <;> rfl
@[simp] theorem acquire_outcome : (acquire n s).1.outcome = s.outcome := by unfold acquire; split <;> rfl
@[simp] theorem acquire_trace : (acquire n s).1.trace = s.trace := by unfold acquire; split <;> rfl
@[simp] theorem acquire_control : (acquire n s).1.control = s.control := by unfold acquire; split <;> rfl
@[simp] theorem acquire_env : (acquire n s).1.env = { s.env with acquisitions := s.env.acquisitions.tail } := by
  unfold acquire; split <;> rfl

/-- A payload buffer that an acquisition leaves is the one there was, or a fresh one. -/
theorem acquire_payload : (acquire n s).1.payload = if s.acquireAnswer = true then some ⟨n, []⟩ else s.payload := by
  unfold acquire; split <;> rfl

/-! ## The host-port calls -/

@[simp] theorem hostSendCommand_host : (hostSendCommand s).1.host = s.host := rfl
@[simp] theorem hostSendCommand_params : (hostSendCommand s).1.params = s.params := rfl
@[simp] theorem hostSendCommand_card : (hostSendCommand s).1.card = s.card := rfl
@[simp] theorem hostSendCommand_payload : (hostSendCommand s).1.payload = s.payload := rfl
@[simp] theorem hostSendCommand_control : (hostSendCommand s).1.control = s.control := rfl
@[simp] theorem hostSendCommand_request : (hostSendCommand s).1.request = s.request := rfl
@[simp] theorem hostSendCommand_callerDesc : (hostSendCommand s).1.callerDesc = s.callerDesc := rfl
@[simp] theorem hostSendCommand_outcome : (hostSendCommand s).1.outcome = s.outcome := rfl
@[simp] theorem hostSendCommand_mem : (hostSendCommand s).1.mem = s.mem := rfl

@[simp] theorem hostRecvResponse_host : (hostRecvResponse s).host = s.host := rfl
@[simp] theorem hostRecvResponse_params : (hostRecvResponse s).params = s.params := rfl
@[simp] theorem hostRecvResponse_card : (hostRecvResponse s).card = s.card := rfl
@[simp] theorem hostRecvResponse_payload : (hostRecvResponse s).payload = s.payload := rfl
@[simp] theorem hostRecvResponse_control : (hostRecvResponse s).control = s.control := rfl
@[simp] theorem hostRecvResponse_request : (hostRecvResponse s).request = s.request := rfl
@[simp] theorem hostRecvResponse_callerDesc : (hostRecvResponse s).callerDesc = s.callerDesc := rfl
@[simp] theorem hostRecvResponse_outcome : (hostRecvResponse s).outcome = s.outcome := rfl
@[simp] theorem hostRecvResponse_mem : (hostRecvResponse s).mem = s.mem := rfl

@[simp] theorem hostAddFraming_host : (hostAddFraming s).host = s.host := rfl
@[simp] theorem hostAddFraming_params : (hostAddFraming s).params = s.params := rfl
@[simp] theorem hostAddFraming_card : (hostAddFraming s).card = s.card := rfl
@[simp] theorem hostAddFraming_payload : (hostAddFraming s).payload = s.payload := rfl
@[simp] theorem hostAddFraming_control : (hostAddFraming s).control = s.control := rfl
@[simp] theorem hostAddFraming_request : (hostAddFraming s).request = s.request := rfl
@[simp] theorem hostAddFraming_callerDesc : (hostAddFraming s).callerDesc = s.callerDesc := rfl
@[simp] theorem hostAddFraming_outcome : (hostAddFraming s).outcome = s.outcome := rfl
@[simp] theorem hostAddFraming_mem : (hostAddFraming s).mem = s.mem := rfl

@[simp] theorem hostIsCardInserted_host : (hostIsCardInserted s).1.host = s.host := rfl
@[simp] theorem hostIsCardInserted_params : (hostIsCardInserted s).1.params = s.params := rfl
@[simp] theorem hostIsCardInserted_card : (hostIsCardInserted s).1.card = s.card := rfl
@[simp] theorem hostIsCardInserted_payload : (hostIsCardInserted s).1.payload = s.payload := rfl
@[simp] theorem hostIsCardInserted_control : (hostIsCardInserted s).1.control = s.control := rfl
@[simp] theorem hostIsCardInserted_request : (hostIsCardInserted s).1.request = s.request := rfl
@[simp] theorem hostIsCardInserted_callerDesc : (hostIsCardInserted s).1.callerDesc = s.callerDesc := rfl
@[simp] theorem hostIsCardInserted_outcome : (hostIsCardInserted s).1.outcome = s.outcome := rfl
@[simp] theorem hostIsCardInserted_mem : (hostIsCardInserted s).1.mem = s.mem := rfl

@[simp] theorem hostActivateCard_host : (hostActivateCard s).1.host = s.host := rfl
@[simp] theorem hostActivateCard_params : (hostActivateCard s).1.params = s.params := rfl
@[simp] theorem hostActivateCard_card : (hostActivateCard s).1.card = s.card := rfl
@[simp] theorem hostActivateCard_payload : (hostActivateCard s).1.payload = s.payload := rfl
@[simp] theorem hostActivateCard_control : (hostActivateCard s).1.control = s.control := rfl
@[simp] theorem hostActivateCard_request : (hostActivateCard s).1.request = s.request := rfl
@[simp] theorem hostActivateCard_callerDesc : (hostActivateCard s).1.callerDesc = s.callerDesc := rfl
@[simp] theorem hostActivateCard_outcome : (hostActivateCard s).1.outcome = s.outcome := rfl
@[simp] theorem hostActivateCard_mem : (hostActivateCard s).1.mem = s.mem := rfl

@[simp] theorem hostSwitchVoltage_host : (hostSwitchVoltage s).1.host = s.host := rfl
@[simp] theorem hostSwitchVoltage_params : (hostSwitchVoltage s).1.params = s.params := rfl
@[simp] theorem hostSwitchVoltage_card : (hostSwitchVoltage s).1.card = s.card := rfl
@[simp] theorem hostSwitchVoltage_payload : (hostSwitchVoltage s).1.payload = s.payload := rfl
@[simp] theorem hostSwitchVoltage_control : (hostSwitchVoltage s).1.control = s.control := rfl
@[simp] theorem hostSwitchVoltage_request : (hostSwitchVoltage s).1.request = s.request := rfl
@[simp] theorem hostSwitchVoltage_callerDesc : (hostSwitchVoltage s).1.callerDesc = s.callerDesc := rfl
@[simp] theorem hostSwitchVoltage_outcome : (hostSwitchVoltage s).1.outcome = s.outcome := rfl
@[simp] theorem hostSwitchVoltage_mem : (hostSwitchVoltage s).1.mem = s.mem := rfl

@[simp] theorem hostSendData_host (d : Descriptor) : (hostSendData d s).1.host = s.host := rfl
@[simp] theorem hostSendData_params (d : Descriptor) : (hostSendData d s).1.params = s.params := rfl
@[simp] theorem hostSendData_card (d : Descriptor) : (hostSendData d s).1.card = s.card := rfl
@[simp] theorem hostSendData_payload (d : Descriptor) : (hostSendData d s).1.payload = s.payload := rfl
@[simp] theorem hostSendData_control (d : Descriptor) : (hostSendData d s).1.control = s.control := rfl
@[simp] theorem hostSendData_request (d : Descriptor) : (hostSendData d s).1.request = s.request := rfl
@[simp] theorem hostSendData_callerDesc (d : Descriptor) : (hostSendData d s).1.callerDesc = s.callerDesc := rfl
@[simp] theorem hostSendData_outcome (d : Descriptor) : (hostSendData d s).1.outcome = s.outcome := rfl
@[simp] theorem hostSendData_mem (d : Descriptor) : (hostSendData d s).1.mem = s.mem := rfl

@[simp] theorem hostRecvData_host (d : Descriptor) : (hostRecvData d s).1.host = s.host := by
  unfold hostRecvData State.receive; simp only; split <;> rfl
@[simp] theorem hostRecvData_params (d : Descriptor) : (hostRecvData d s).1.params = s.params := by
  unfold hostRecvData State.receive; simp only; split <;> rfl
@[simp] theorem hostRecvData_card (d : Descriptor) : (hostRecvData d s).1.card = s.card := by
  unfold hostRecvData State.receive; simp only; split <;> rfl
@[simp] theorem hostRecvData_control (d : Descriptor) : (hostRecvData d s).1.control = s.control := by
  unfold hostRecvData State.receive; simp only; split <;> rfl
@[simp] theorem hostRecvData_request (d : Descriptor) : (hostRecvData d s).1.request = s.request := by
  unfold hostRecvData State.receive; simp only; split <;> rfl
@[simp] theorem hostRecvData_callerDesc (d : Descriptor) : (hostRecvData d s).1.callerDesc = s.callerDesc := by
  unfold hostRecvData State.receive; simp only; split <;> rfl
@[simp] theorem hostRecvData_outcome (d : Descriptor) : (hostRecvData d s).1.outcome = s.outcome := by
  unfold hostRecvData State.receive; simp only; split <;> rfl

@[simp] theorem hostSetBusWidth_host (w : BusWidth) : (hostSetBusWidth w s).host = s.host := rfl
@[simp] theorem hostSetBusWidth_params (w : BusWidth) : (hostSetBusWidth w s).params = s.params := rfl
@[simp] theorem hostSetBusWidth_card (w : BusWidth) : (hostSetBusWidth w s).card = { s.card with busWidth := w } := rfl
@[simp] theorem hostSetBusWidth_payload (w : BusWidth) : (hostSetBusWidth w s).payload = s.payload := rfl
@[simp] theorem hostSetBusWidth_control (w : BusWidth) : (hostSetBusWidth w s).control = s.control := rfl
@[simp] theorem hostSetBusWidth_request (w : BusWidth) : (hostSetBusWidth w s).request = s.request := rfl
@[simp] theorem hostSetBusWidth_callerDesc (w : BusWidth) : (hostSetBusWidth w s).callerDesc = s.callerDesc := rfl
@[simp] theorem hostSetBusWidth_outcome (w : BusWidth) : (hostSetBusWidth w s).outcome = s.outcome := rfl
@[simp] theorem hostSetBusWidth_mem (w : BusWidth) : (hostSetBusWidth w s).mem = s.mem := rfl

@[simp] theorem hostSetClockFrequency_host (k : ClockClass) : (hostSetClockFrequency k s).host = s.host := rfl
@[simp] theorem hostSetClockFrequency_params (k : ClockClass) : (hostSetClockFrequency k s).params = s.params := rfl
@[simp] theorem hostSetClockFrequency_card (k : ClockClass) : (hostSetClockFrequency k s).card = { s.card with clockClass := k } := rfl
@[simp] theorem hostSetClockFrequency_payload (k : ClockClass) : (hostSetClockFrequency k s).payload = s.payload := rfl
@[simp] theorem hostSetClockFrequency_control (k : ClockClass) : (hostSetClockFrequency k s).control = s.control := rfl
@[simp] theorem hostSetClockFrequency_request (k : ClockClass) : (hostSetClockFrequency k s).request = s.request := rfl
@[simp] theorem hostSetClockFrequency_callerDesc (k : ClockClass) : (hostSetClockFrequency k s).callerDesc = s.callerDesc := rfl
@[simp] theorem hostSetClockFrequency_outcome (k : ClockClass) : (hostSetClockFrequency k s).outcome = s.outcome := rfl
@[simp] theorem hostSetClockFrequency_mem (k : ClockClass) : (hostSetClockFrequency k s).mem = s.mem := rfl

@[simp] theorem dataPhase_host (dir : Direction) (d : Descriptor) : (dataPhase dir d s).1.host = s.host := by
  cases dir
  · exact hostRecvData_host s d
  · rfl
@[simp] theorem dataPhase_params (dir : Direction) (d : Descriptor) : (dataPhase dir d s).1.params = s.params := by
  cases dir
  · exact hostRecvData_params s d
  · rfl
@[simp] theorem dataPhase_card (dir : Direction) (d : Descriptor) : (dataPhase dir d s).1.card = s.card := by
  cases dir
  · exact hostRecvData_card s d
  · rfl
@[simp] theorem dataPhase_control (dir : Direction) (d : Descriptor) : (dataPhase dir d s).1.control = s.control := by
  cases dir
  · exact hostRecvData_control s d
  · rfl
@[simp] theorem dataPhase_request (dir : Direction) (d : Descriptor) : (dataPhase dir d s).1.request = s.request := by
  cases dir
  · exact hostRecvData_request s d
  · rfl
@[simp] theorem dataPhase_callerDesc (dir : Direction) (d : Descriptor) : (dataPhase dir d s).1.callerDesc = s.callerDesc := by
  cases dir
  · exact hostRecvData_callerDesc s d
  · rfl
@[simp] theorem dataPhase_outcome (dir : Direction) (d : Descriptor) : (dataPhase dir d s).1.outcome = s.outcome := by
  cases dir
  · exact hostRecvData_outcome s d
  · rfl

end Sys2Proof.Machine
end

