-- ==== Sys2Proof/Laws/Steps.lean ====
section
/-! SUPPORT. The block's steps: what one step of an operation in progress is, how runs compose, and that the steps of a called
controller lead to exactly the return that `Laws/Summary.lean` gives it. -/

namespace Sys2Proof.Machine

/-! ## Runs of steps -/

theorem Steps.trans {s t u : State} (h : Steps s t) (k : Steps t u) : Steps s u := by
  induction h with
  | here => exact k
  | step s t _ h _ ih => exact Steps.step s t _ h (ih k)

/-- One step of an operation in progress. -/
theorem step_at {s : State} {p : Point} {K : List Frame} (h : At s p K) : step s = .next (advance p K s) := by
  simp [step, fetch, h.request, h.control, resume]

theorem Steps.advance {s u : State} {p : Point} {K : List Frame} (h : At s p K) (k : Steps (advance p K s) u) : Steps s u :=
  Steps.step s _ u (step_at h) k

theorem at_goto (s : State) (p : Point) (K : List Frame) (h : s.request = none) : At (s.goto p K) p K := ⟨rfl, h⟩

/-- Runs of a deterministic block are comparable. -/
theorem Steps.linear {s t u : State} (h : Steps s t) : Steps s u → Steps t u ∨ Steps u t := by
  induction h with
  | here => exact .inl
  | step s t v h hv ih =>
    intro k
    cases k with
    | here => exact .inr (Steps.step _ t v h hv)
    | step _ t' _ h' k' =>
      rw [h] at h'
      cases h'
      exact ih k'

/-! ## The control point is no input of what a line does -/

theorem acquire_setControl (n : Nat) (s : State) (c : Control) :
    acquire n (s.setControl c) = ((acquire n s).1.setControl c, (acquire n s).2) := by
  unfold acquire
  cases h : s.acquireAnswer
  · rw [if_neg (by rw [show (s.setControl c).acquireAnswer = false from h]; simp), if_neg (by simp)]; rfl
  · rw [if_pos (by rw [show (s.setControl c).acquireAnswer = true from h]), if_pos rfl]; rfl

theorem enterSelectFunction_setControl (m : SwitchMode) (g i : Nat) (K : List Frame) (s : State) (c : Control) :
    enterSelectFunction m g i K (s.setControl c) = enterSelectFunction m g i K s := by
  unfold enterSelectFunction
  rw [acquire_setControl]
  rfl

theorem enterGetScr_setControl (K : List Frame) (s : State) (c : Control) :
    enterGetScr K (s.setControl c) = enterGetScr K s := by
  unfold enterGetScr
  rw [acquire_setControl]
  rfl

theorem enterSelectCard_setControl (sel : Bool) (K : List Frame) (s : State) (c : Control) :
    enterSelectCard sel K (s.setControl c) = enterSelectCard sel K s := by
  rfl

/-- What a frame does next does not depend on the control point. -/
theorem answer_setControl (f : Frame) (r : Result) (K : List Frame) (s : State) (c : Control) :
    answer f r K (s.setControl c) = answer f r K s := by
  cases f
  case checkLength g i =>
    simp only [answer, checkLengthAnswered, afterCall, enterSelectFunction_setControl]; rfl
  case switchLength g i =>
    simp only [answer, switchLengthAnswered, afterCall, enterSelectFunction_setControl]; rfl
  case normalSelect =>
    simp only [answer, normalSelectAnswered, normalStep, normalFails, enterGetScr_setControl, enterSelectCard_setControl]
  case normalCsd =>
    simp only [answer, normalCsdAnswered, normalStep, normalFails, enterSelectCard_setControl]
  case normalDeselect e => 
    simp only [answer, normalDeselectAnswered]
    show (if s.card.inMode .transfer = true then _ else _ : State).endWith _ _ _ = _
    split <;> rfl
  all_goals rfl

/-- The steps from a controller's return to a frame. -/
theorem Steps.answer {s u : State} {r : Result} {f : Frame} {K : List Frame} (h : s.request = none)
    (k : Steps (answer f r K s) u) : Steps (s.giveBack r (f :: K)) u := by
  refine Steps.advance (p := .returned r) (K := f :: K) ⟨rfl, h⟩ ?_
  show Steps (Machine.answer f r K (s.setControl _)) u
  rw [answer_setControl]
  exact k

/-! ## The exchange -/

theorem run_send (K : List Frame) (s : State) (h : s.request = none) :
    Steps (s.goto .sendCommand K)
      (if (hostSendCommand s).2 = .well ∧ s.cmd.responseType ≠ .none then
        (hostRecvResponse (hostSendCommand s).1).giveBack .well K
      else (hostSendCommand s).1.giveBack (hostSendCommand s).2 K) := by
  refine Steps.advance (at_goto s _ K h) ?_
  show Steps (if (hostSendCommand s).2 = .well ∧ s.cmd.responseType ≠ .none then (hostSendCommand s).1.goto .recvResponse K
    else (hostSendCommand s).1.giveBack (hostSendCommand s).2 K) _
  split
  · exact Steps.advance (at_goto _ _ K h) (Steps.here _)
  · exact Steps.here _

/-- R14: the steps of an exchange. -/
theorem run_exchange (c : CmdReg) (K : List Frame) (s : State) (h : s.request = none) :
    Steps (startExchange c K s) ((exchange c s).1.giveBack (exchange c s).2 K) := by
  have key : ∀ t : State, t = frame (s.setCmd c) → t.request = none → t.cmd.responseType = c.responseType →
      Steps (t.goto .sendCommand K) ((exchange c s).1.giveBack (exchange c s).2 K) := by
    intro t ht hr hc
    have k := run_send K t hr
    have e : (if (hostSendCommand t).2 = .well ∧ t.cmd.responseType ≠ .none then
        (hostRecvResponse (hostSendCommand t).1).giveBack .well K
      else (hostSendCommand t).1.giveBack (hostSendCommand t).2 K) = (exchange c s).1.giveBack (exchange c s).2 K := by
      unfold exchange
      rw [← ht, hc]
      by_cases h1 : (hostSendCommand t).2 = .well
      · by_cases h2 : c.responseType = .none
        · simp [h1, h2]
        · simp [h1, h2]
      · simp [h1]
    rwa [e] at k
  unfold startExchange
  cases hf : s.host.framing with
  | coreCRC7 => exact key _ (by rw [frame_coreCRC7 (s.setCmd c) hf]; rfl) h rfl
  | hostOverride =>
    refine Steps.advance (at_goto _ _ K h) ?_
    refine key (hostAddFraming (s.setCmd c)) ?_ h rfl
    unfold frame
    rw [show (s.setCmd c).host.framing = _ from hf]

/-- A position's own `goto` is the state. -/
theorem At.goto {s : State} {p : Point} {K : List Frame} (h : At s p K) : s.goto p K = s := by
  unfold State.goto State.setControl; rw [← h.control]

/-- R14, R164: a run that leads to the beginning of a command's exchange starts that command. -/
theorem Ran.starts {s t : State} {p : Point} {K L : List Frame} {f : List (BitVec 48)} {i : BitVec 6} {a : Word} {ty : ResponseType}
    {d : Option Descriptor} (h : Ran s t f) (ha : At s p K) (hne : p ≠ exchangeCall s) (hp : t.payload = s.payload)
    (st : Steps s (startExchange (newDataCmd i a ty d) L t)) : Starts (step s) s i a ty d L t.card f := by
  have he : exchangeCall t = exchangeCall s := by unfold exchangeCall; rw [h.host]
  have hz : Stands s (startExchange (newDataCmd i a ty d) L t) (exchangeCall s) L t.card f :=
    ⟨by simp [h.host], by simp [h.params], by simp [h.request], by rw [startExchange_point, he], by simp [hp],
      by simp [h.callerDesc], by simp, by simp [h.outcome], fun hf => by rw [startExchange_trace]; exact h.frames hf⟩
  have hm : MemorySame s (startExchange (newDataCmd i a ty d) L t) := fun x => by
    rw [startExchange_mem]; exact h.memorySame x
  have hc : (startExchange (newDataCmd i a ty d) L t).cmd =
      if s.host.framing = .coreCRC7 then (newDataCmd i a ty d).framed else newDataCmd i a ty d := by
    rw [startExchange_cmd, h.host]
  generalize startExchange (newDataCmd i a ty d) L t = u at *
  cases st with
  | here => exact absurd ((Control.running.inj (ha.control.symm.trans hz.control)).1) hne
  | step _ v _ hv k =>
    refine ⟨v, hv, u, k, hz, hm, ?_, ?_, ?_, ?_, fun hf => ?_⟩
    · rw [hc]; split
      · show BitVec.extractLsb 5 0 (startBits (i.zeroExtend 8)) = i
        clear * -; revert i; decide
      · show BitVec.extractLsb 5 0 (i.zeroExtend 8) = i
        clear * -; revert i; decide
    · rw [hc]; split <;> rfl
    · rw [hc]; split <;> rfl
    · rw [hc]; split <;> rfl
    · rw [hc, if_pos hf]; exact newDataCmd_wire i a ty d

/-- R14, R50: an exchange in a controller, and what the controller does with its result. -/
theorem run_exchange_then (c : CmdReg) (f : Frame) (K : List Frame) (s u : State) (h : s.request = none)
    (k : Steps (answer f (exchange c s).2 K (exchange c s).1) u) : Steps (startExchange c (f :: K) s) u :=
  (run_exchange c (f :: K) s h).trans (Steps.answer (by rw [exchange_request]; exact h) k)

/-! ## The controllers of file 42 -/

theorem run_goIdle (K : List Frame) (s : State) (h : s.request = none) :
    Steps (enterGoIdle K s) ((goIdle s).1.giveBack (goIdle s).2 K) := by
  refine Steps.advance (at_goto (s.setCmd (newCmd 0#6 0#32 .none)) _ K h) ?_
  refine run_exchange_then (newCmd 0#6 0#32 .none) .goIdle K (hostRecvResponse (s.setCmd (newCmd 0#6 0#32 .none))) _ h ?_
  unfold goIdle tryThen
  simp only [answer, goIdleAnswered, afterCall]
  split_ifs <;> exact Steps.here _

theorem run_appCmdPrefix (K : List Frame) (s : State) (h : s.request = none) :
    Steps (enterAppCmdPrefix K s) ((appCmdPrefix s).1.giveBack (appCmdPrefix s).2 K) := by
  refine run_exchange_then _ _ K s _ h ?_
  unfold appCmdPrefix tryThen
  simp only [answer, appPrefixAnswered, afterCall]
  split_ifs <;> exact Steps.here _

theorem appCmdPrefix_request (s : State) : (appCmdPrefix s).1.request = s.request := (appCmdPrefix_ran s).request

/-- A prefix in a controller, and what the controller does with its result. -/
theorem run_prefix_then (f : Frame) (K : List Frame) (s u : State) (h : s.request = none)
    (k : Steps (answer f (appCmdPrefix s).2 K (appCmdPrefix s).1) u) : Steps (enterAppCmdPrefix (f :: K) s) u :=
  (run_appCmdPrefix (f :: K) s h).trans (Steps.answer (by rw [appCmdPrefix_request]; exact h) k)

theorem run_sendOpCond (a : Word) (K : List Frame) (s : State) (h : s.request = none) :
    Steps (enterSendOpCond a K s) ((sendOpCond a s).1.giveBack (sendOpCond a s).2 K) := by
  refine run_prefix_then _ K s _ h ?_
  unfold sendOpCond tryThen
  simp only [answer, opCondPrefixAnswered, afterCall]
  by_cases h1 : (appCmdPrefix s).2 = .well
  · rw [if_pos h1, if_pos h1]
    refine run_exchange_then _ _ K _ _ (by rw [appCmdPrefix_request]; exact h) ?_
    simp only [answer, opCondAnswered, afterCall]
    split_ifs <;> exact Steps.here _
  · rw [if_neg h1, if_neg h1]
    exact Steps.here _

theorem run_readCid (c : CmdReg) (K : List Frame) (s : State) (h : s.request = none) :
    Steps (startExchange c (.cid :: K) s) ((readCid c s).1.giveBack (readCid c s).2 K) := by
  refine run_exchange_then _ _ K s _ h ?_
  unfold readCid tryThen
  simp only [answer, cidAnswered, afterCall]
  split_ifs <;> exact Steps.here _

theorem run_issueRca (K : List Frame) (s : State) (h : s.request = none) :
    Steps (enterIssueRca K s) ((issueRca s).1.giveBack (issueRca s).2 K) := by
  refine run_exchange_then _ _ K s _ h ?_
  unfold issueRca tryThen
  simp only [answer, rcaAnswered, afterCall]
  split_ifs <;> exact Steps.here _

theorem checkR1_eq (s : State) : checkR1 s = (s, r1Code s) := by
  unfold checkR1 r1Code; split <;> rfl

theorem run_switchVoltage (K : List Frame) (s : State) (h : s.request = none) :
    Steps (enterSwitchVoltage K s) ((switchVoltage s).1.giveBack (switchVoltage s).2 K) := by
  unfold enterSwitchVoltage switchVoltage
  split
  · exact Steps.here _
  · refine run_exchange_then _ _ K s _ h ?_
    unfold tryThen
    simp only [answer, voltageAnswered, afterCall, checkR1_eq]
    have hr : (exchange (newCmd 11#6 0#32 .r1) s).1.request = none := by rw [exchange_request]; exact h
    generalize exchange (newCmd 11#6 0#32 .r1) s = e at hr ⊢
    by_cases h1 : e.2 = .well
    · rw [if_pos h1, if_pos h1]
      by_cases h2 : r1Code e.1 = .well
      · rw [if_pos h2, if_pos h2]
        refine Steps.advance (at_goto _ _ K hr) ?_
        rw [show advance .voltage K (e.1.goto .voltage K) = voltageCall K e.1 from rfl]
        simp only [voltageCall, afterCall]
        split_ifs <;> exact Steps.here _
      · rw [if_neg h2, if_neg h2]
        exact Steps.here _
    · rw [if_neg h1, if_neg h1]
      exact Steps.here _

theorem run_getCsd (K : List Frame) (s : State) (h : s.request = none) :
    Steps (enterGetCsd K s) ((getCsd s).1.giveBack (getCsd s).2 K) := by
  refine run_exchange_then _ _ K s _ h ?_
  unfold getCsd tryThen
  simp only [answer, csdAnswered, afterCall]
  generalize exchange (newCmd 9#6 s.card.rcaArg .r2) s = e
  split_ifs
  · cases csdFields (registerOfWords e.1.cmd.response) <;> exact Steps.here _
  · exact Steps.here _

theorem run_getStatus (K : List Frame) (s : State) (h : s.request = none) :
    Steps (enterGetStatus K s) ((getStatus s).1.giveBack (getStatus s).2 K) := by
  refine run_exchange_then _ _ K s _ h ?_
  unfold getStatus tryThen
  simp only [answer, statusAnswered, afterCall]
  split_ifs <;> exact Steps.here _

theorem run_stopTransmission (K : List Frame) (s : State) (h : s.request = none) :
    Steps (enterStopTransmission K s) ((stopTransmission s).1.giveBack (stopTransmission s).2 K) := by
  refine run_exchange_then _ _ K s _ h ?_
  unfold stopTransmission
  simp only [answer, stopAnswered]
  generalize exchange (newCmd 12#6 0#32 .r1b) s = e
  by_cases h1 : e.2 = .well <;> by_cases h2 : r1Ok e.1.resp0 = true <;> simp [h1, h2] <;> exact Steps.here _

theorem run_goInactive (K : List Frame) (s : State) (h : s.request = none) :
    Steps (enterGoInactive K s) ((goInactive s).1.giveBack (goInactive s).2 K) := by
  refine run_exchange_then _ _ K s _ h ?_
  unfold goInactive tryThen
  simp only [answer, inactiveAnswered, afterCall]
  split_ifs <;> exact Steps.here _

theorem run_checked (c : CmdReg) (K : List Frame) (s : State) (h : s.request = none) :
    Steps (startChecked c K s) ((checkedExchange c s).1.giveBack (checkedExchange c s).2 K) := by
  refine run_exchange_then _ _ K s _ h ?_
  unfold checkedExchange tryThen
  simp only [answer, checkedAnswered, afterCall, checkR1_eq]
  split_ifs <;> exact Steps.here _

theorem checkedExchange_request (c : CmdReg) (s : State) : (checkedExchange c s).1.request = s.request :=
  (checkedExchange_ran c s).request

/-- A checked exchange in a sequencer, and what the sequencer does with its result. -/
theorem run_checked_then (c : CmdReg) (f : Frame) (K : List Frame) (s u : State) (h : s.request = none)
    (k : Steps (answer f (checkedExchange c s).2 K (checkedExchange c s).1) u) : Steps (startChecked c (f :: K) s) u :=
  (run_checked c (f :: K) s h).trans (Steps.answer (by rw [checkedExchange_request]; exact h) k)

theorem run_selectCard (sel : Bool) (K : List Frame) (s : State) (h : s.request = none) :
    Steps (enterSelectCard sel K s) ((selectCard sel s).1.giveBack (selectCard sel s).2 K) := by
  refine run_exchange_then _ _ K s _ h ?_
  unfold selectCard tryThen
  by_cases h1 : selectResponse (selectArg s.card sel) = .r1
  · simp only [if_pos h1, answer, checkedAnswered, afterCall, checkR1_eq]
    split_ifs <;> exact Steps.here _
  · simp only [if_neg h1, answer, sentAnswered]
    generalize exchange (newCmd 7#6 (selectArg s.card sel) (selectResponse (selectArg s.card sel))) s = e
    by_cases h2 : e.2 = .well
    · rw [if_pos h2, h2]; exact Steps.here _
    · rw [if_neg h2]; exact Steps.here _

theorem run_setBusWidth (w : Nat) (K : List Frame) (s : State) (h : s.request = none) :
    Steps (enterSetBusWidth w K s) ((setBusWidth w s).1.giveBack (setBusWidth w s).2 K) := by
  unfold enterSetBusWidth setBusWidth
  split
  · exact Steps.here _
  · refine run_prefix_then _ K s _ h ?_
    unfold tryThen
    simp only [answer, widthPrefixAnswered, afterCall]
    by_cases h1 : (appCmdPrefix s).2 = .well
    · rw [if_pos h1, if_pos h1]
      exact run_checked _ K _ (by rw [appCmdPrefix_request]; exact h)
    · rw [if_neg h1, if_neg h1]
      exact Steps.here _

/-! ## The controllers with a payload -/

theorem run_getScr (K : List Frame) (s : State) (h : s.request = none) :
    Steps (enterGetScr K s) ((getScr s).1.giveBack (getScr s).2 K) := by
  unfold enterGetScr getScr
  have hp : (acquire 8 s).1.request = none := by rw [acquire_request]; exact h
  generalize acquire 8 s = p at hp
  by_cases h0 : p.2 = false
  · simp only [if_pos h0]; exact Steps.here _
  · simp only [if_neg h0]
    refine run_prefix_then _ K _ _ hp ?_
    have ha : (appCmdPrefix p.1).1.request = none := by rw [appCmdPrefix_request]; exact hp
    simp only [getScrAcquired, tryThen, release, answer, scrPrefixAnswered]
    generalize appCmdPrefix p.1 = a at ha
    by_cases h1 : a.2 = .well
    · rw [if_neg (by simp [h1]), if_pos h1]
      refine run_exchange_then _ _ K _ _ ha ?_
      have he : (exchange (newDataCmd 51#6 0#32 .r1 (some (payloadDescriptor scrLen))) a.1).1.request = none := by
        rw [exchange_request]; exact ha
      simp only [answer, scrAnswered, checkR1_eq, r1Code]
      generalize exchange (newDataCmd 51#6 0#32 .r1 (some (payloadDescriptor scrLen))) a.1 = e at he
      by_cases h2 : e.2 = .well
      · rw [if_neg (by simp [h2]), if_pos h2]
        by_cases h3 : r1Ok e.1.resp0 = true
        · rw [if_neg (by simp [h3]), if_pos (by simp [h3])]
          refine Steps.advance (at_goto _ _ K he) ?_
          show Steps (if (hostRecvData (payloadDescriptor scrLen) e.1).2 ≠ .well then _ else _) _
          by_cases h4 : (hostRecvData (payloadDescriptor scrLen) e.1).2 = .well
          · rw [if_neg (not_not_intro h4), if_pos h4]; exact Steps.here _
          · rw [if_pos h4, if_neg h4]; exact Steps.here _
        · rw [if_pos (by simpa using h3), if_neg (by simp [h3])]
          simp only [if_neg h3]
          exact Steps.here _
      · rw [if_pos (by simp [h2]), if_neg h2]; exact Steps.here _
    · rw [if_pos (by simp [h1]), if_neg h1]; exact Steps.here _

theorem run_selectFunction (m : SwitchMode) (g i : Nat) (K : List Frame) (s : State) (h : s.request = none) :
    Steps (enterSelectFunction m g i K s) ((selectFunction m g i s).1.giveBack (selectFunction m g i s).2 K) := by
  unfold enterSelectFunction selectFunction
  by_cases hr : g < 1 ∨ 6 < g ∨ 15 < i
  · rw [if_pos hr, if_pos hr]; exact Steps.here _
  rw [if_neg hr, if_neg hr]
  have hp : (acquire 64 s).1.request = none := by rw [acquire_request]; exact h
  generalize acquire 64 s = p at hp
  by_cases h0 : p.2 = false
  · simp only [if_pos h0]; exact Steps.here _
  · simp only [if_neg h0]
    refine run_exchange_then _ _ K _ _ hp ?_
    have he : (exchange (newDataCmd 6#6 (cmd6Arg m g i) .r1 (some (payloadDescriptor switchBlockLen))) p.1).1.request = none := by
      rw [exchange_request]; exact hp
    simp only [selectFunctionAcquired, tryThen, release, answer, tableAnswered, checkR1_eq, r1Code]
    generalize exchange (newDataCmd 6#6 (cmd6Arg m g i) .r1 (some (payloadDescriptor switchBlockLen))) p.1 = e at he
    by_cases h2 : e.2 = .well
    · rw [if_neg (by simp [h2]), if_pos h2]
      by_cases h3 : r1Ok e.1.resp0 = true
      · rw [if_neg (by simp [h3]), if_pos (by simp [h3])]
        refine Steps.advance (at_goto _ _ K he) ?_
        show Steps (if (hostRecvData (payloadDescriptor switchBlockLen) e.1).2 ≠ .well then _ else _) _
        by_cases h4 : (hostRecvData (payloadDescriptor switchBlockLen) e.1).2 = .well
        · rw [if_neg (not_not_intro h4), if_pos h4]; exact Steps.here _
        · rw [if_pos h4, if_neg h4]; exact Steps.here _
      · rw [if_pos (by simpa using h3), if_neg (by simp [h3])]
        simp only [if_neg h3]
        exact Steps.here _
    · rw [if_pos (by simp [h2]), if_neg h2]; exact Steps.here _

/-! ## The negotiator -/

/-- A payload controller changes nothing at the request port. -/
theorem tryThen_request (p : State × Result) (k : State → State × Result) (hp : p.1.request = none)
    (hk : ∀ t : State, t.request = none → (k t).1.request = none) : (tryThen p k).1.request = none := by
  rcases tryThen_cases p k with ⟨_, h⟩ | ⟨_, h⟩ <;> rw [h]
  · exact hk _ hp
  · exact hp

theorem recvData_request (d : Descriptor) (s : State) : (hostRecvData d s).1.request = s.request := by
  unfold hostRecvData State.receive
  simp only
  split <;> rfl

theorem selectFunction_request (m : SwitchMode) (g i : Nat) (s : State) (h : s.request = none) :
    (selectFunction m g i s).1.request = none := by
  unfold selectFunction
  split
  · exact h
  · have hp : (acquire 64 s).1.request = none := by rw [acquire_request]; exact h
    simp only
    split
    · exact hp
    · refine tryThen_request _ _ (by rw [exchange_request]; exact hp) fun t ht => ?_
      refine tryThen_request _ _ (by rw [checkR1_state]; exact ht) fun t ht => ?_
      exact tryThen_request _ _ (by rw [recvData_request]; exact ht) fun t ht => ht

theorem getScr_request (s : State) (h : s.request = none) : (getScr s).1.request = none := by
  unfold getScr
  have hp : (acquire 8 s).1.request = none := by rw [acquire_request]; exact h
  simp only
  split
  · exact hp
  · refine tryThen_request _ _ (by rw [appCmdPrefix_request]; exact hp) fun t ht => ?_
    refine tryThen_request _ _ (by rw [exchange_request]; exact ht) fun t ht => ?_
    refine tryThen_request _ _ (by rw [checkR1_state]; exact ht) fun t ht => ?_
    exact tryThen_request _ _ (by rw [recvData_request]; exact ht) fun t ht => ht

theorem run_selectFunction_then (m : SwitchMode) (g i : Nat) (f : Frame) (K : List Frame) (s u : State)
    (h : s.request = none) (k : Steps (answer f (selectFunction m g i s).2 K (selectFunction m g i s).1) u) :
    Steps (enterSelectFunction m g i (f :: K) s) u :=
  (run_selectFunction m g i (f :: K) s h).trans (Steps.answer (selectFunction_request m g i s h) k)

theorem run_setBlockLength_then (len : Word) (f : Frame) (K : List Frame) (s u : State) (h : s.request = none)
    (k : Steps (answer f (setBlockLength len s).2 K (setBlockLength len s).1) u) :
    Steps (enterSetBlockLength len (f :: K) s) u := run_checked_then _ f K s u h k

theorem run_negotiate (g i : Nat) (K : List Frame) (s : State) (h : s.request = none) :
    Steps (enterNegotiate g i K s) ((negotiate g i s).1.giveBack (negotiate g i s).2 K) := by
  refine run_setBlockLength_then _ _ K s _ h ?_
  have ha : (setBlockLength switchBlockLen s).1.request = none := by
    rw [(setBlockLength_ran _ s).request]; exact h
  unfold negotiate
  simp only [answer, checkLengthAnswered, afterCall, tryThen]
  generalize setBlockLength switchBlockLen s = a at ha
  by_cases h1 : a.2 = .well
  · rw [if_pos h1, if_pos h1]
    refine run_selectFunction_then _ _ _ _ K _ _ ha ?_
    have hb := selectFunction_request .check g i a.1 ha
    simp only [answer, checkTableAnswered, afterCall]
    generalize selectFunction .check g i a.1 = b at hb
    by_cases h2 : b.2 = .well
    · rw [if_pos h2, if_pos h2]
      by_cases h3 : checkAccepted b.1.card g i = false
      · simp only [if_pos h3]; exact Steps.here _
      · simp only [if_neg h3]
        refine run_setBlockLength_then _ _ K _ _ hb ?_
        have hc : (setBlockLength switchBlockLen b.1).1.request = none := by
          rw [(setBlockLength_ran _ b.1).request]; exact hb
        simp only [answer, switchLengthAnswered, afterCall]
        generalize setBlockLength switchBlockLen b.1 = c at hc
        by_cases h4 : c.2 = .well
        · rw [if_pos h4, if_pos h4]
          refine run_selectFunction_then _ _ _ _ K _ _ hc ?_
          simp only [answer, switchTableAnswered, afterCall]
          generalize selectFunction .switch g i c.1 = d
          by_cases h5 : d.2 = .well
          · rw [if_pos h5, if_pos h5]
            split_ifs <;> exact Steps.here _
          · rw [if_neg h5, if_neg h5]; exact Steps.here _
        · rw [if_neg h4, if_neg h4]; exact Steps.here _
    · rw [if_neg h2, if_neg h2]; exact Steps.here _
  · rw [if_neg h1, if_neg h1]; exact Steps.here _

theorem negotiate_request (g i : Nat) (s : State) (h : s.request = none) : (negotiate g i s).1.request = none := by
  refine tryThen_request _ _ (by rw [(setBlockLength_ran _ s).request]; exact h) fun t ht => ?_
  refine tryThen_request _ _ (selectFunction_request _ _ _ _ ht) fun t ht => ?_
  split
  · exact ht
  · refine tryThen_request _ _ (by rw [(setBlockLength_ran _ t).request]; exact ht) fun t ht => ?_
    refine tryThen_request _ _ (selectFunction_request _ _ _ _ ht) fun t ht => ?_
    split <;> exact ht

/-! ## Returns to the caller -/

theorem run_returned (r : Result) (s : State) (h : s.request = none) : Steps (s.giveBack r []) (s.finishCode r) :=
  Steps.advance ⟨rfl, h⟩ (Steps.here _)

theorem run_ended (ok : Bool) (code : Option Result) (s : State) (h : s.request = none) :
    Steps (s.endWith ok code []) (s.finish ok code) :=
  Steps.advance ⟨rfl, h⟩ (Steps.here _)

/-! ## to_normal (R294, R297) -/

theorem run_normalFails (r : Result) (K : List Frame) (s : State) (h : s.request = none) (hr : r ≠ .well) :
    Steps (normalFails r K s) (toNormalReturn (s, r) K) := by
  refine (run_selectCard false (.normalDeselect r :: K) s h).trans ?_
  refine Steps.answer (by rw [(deselect_law s).1.request]; exact h) ?_
  rw [toNormalReturn, if_neg hr]
  exact Steps.here _

/-- One call of the sequence of `to_normal`. -/
theorem run_normalStep (p : State × Result) (k : State → State × Result) (next : State → State) (K : List Frame)
    (h : p.1.request = none) (hn : ∀ t : State, t.request = none → Steps (next t) (toNormalReturn (k t) K)) :
    Steps (normalStep p.2 K p.1 next) (toNormalReturn (tryThen p k) K) := by
  unfold normalStep
  by_cases h1 : p.2 = .well
  · rw [if_pos h1, tryThen_well p k h1]; exact hn _ h
  · rw [if_neg h1, tryThen_fail p k h1]; exact run_normalFails p.2 K p.1 h h1

theorem run_normalTolerates (g i : Nat) (f : Frame) (s : State) (k : State → State × Result) (next : State → State)
    (K : List Frame) (h : s.request = none)
    (hf : ∀ (r : Result) (t : State), answer f r K t = normalTolerates r K t next)
    (hn : ∀ t : State, t.request = none → Steps (next t) (toNormalReturn (k t) K)) :
    Steps (enterNegotiate g i (f :: K) s) (toNormalReturn (tryThen (negotiateTolerated g i s) k) K) := by
  refine (run_negotiate g i (f :: K) s h).trans (Steps.answer (negotiate_request g i s h) ?_)
  have hq := negotiate_request g i s h
  rw [hf]
  unfold normalTolerates negotiateTolerated
  by_cases h1 : tolerated (negotiate g i s).2 = true
  · simp only [if_pos h1]
    rw [tryThen_well _ k rfl]
    exact hn _ hq
  · simp only [if_neg h1]
    have h2 : (negotiate g i s).2 ≠ .well := by
      intro h3; rw [h3] at h1; exact h1 rfl
    rw [tryThen_fail _ k h2]
    exact run_normalFails _ K _ hq h2

theorem selectCard_request (sel : Bool) (s : State) (h : s.request = none) : (selectCard sel s).1.request = none := by
  refine tryThen_request _ _ (by rw [exchange_request]; exact h) fun t ht => ?_
  split
  · rw [checkR1_state]; exact ht
  · exact ht

theorem tryThen_assoc (p : State × Result) (k l : State → State × Result) :
    tryThen (tryThen p k) l = tryThen p fun s => tryThen (k s) l := by
  by_cases h : p.2 = .well
  · rw [tryThen_well p k h, tryThen_well p _ h]
  · rw [tryThen_fail p k h, tryThen_fail p l h, tryThen_fail p _ h]

theorem tryThen_pure (s : State) (k : State → State × Result) : tryThen (s, .well) k = k s := rfl

/-- R294, R297: the steps of `to_normal` past its guard. -/
theorem run_toNormal (K : List Frame) (s : State) (h : s.request = none)
    (hg : ¬ (s.card.rca = 0#16 ∨ s.card.inMode .inactive = true)) :
    Steps (enterToNormal K s) (toNormalReturn (toNormalSequence s) K) := by
  unfold enterToNormal
  rw [if_neg hg]
  refine (run_getCsd (.normalCsd :: K) s h).trans ?_
  have h1 : (getCsd s).1.request = none := by rw [(getCsd_law s).1.request]; exact h
  refine Steps.answer h1 ?_
  unfold toNormalSequence
  refine run_normalStep _ _ _ K h1 fun t ht => ?_
  refine (run_selectCard true (.normalSelect :: K) t ht).trans (Steps.answer (selectCard_request true t ht) ?_)
  refine run_normalStep _ _ _ K (selectCard_request true t ht) fun t ht => ?_
  refine (run_getScr (.normalScr :: K) t ht).trans (Steps.answer (getScr_request t ht) ?_)
  simp only [answer, normalScrAnswered]
  refine run_normalStep _ _ _ K (getScr_request t ht) fun t ht => ?_
  -- the end of the sequence
  have hlast : ∀ t : State, t.request = none → Steps (normalSetsLength K t)
      (toNormalReturn (tryThen (setBlockLength blockLen t) fun s =>
        ((s.setCard s.card.fixBlockSize).setMode .transfer, .well)) K) := by
    intro t ht
    have hl : (setBlockLength blockLen t).1.request = none := by rw [(setBlockLength_ran _ t).request]; exact ht
    refine run_setBlockLength_then _ _ K t _ ht ?_
    simp only [answer, normalLengthAnswered]
    exact run_normalStep _ _ _ K hl fun t _ => Steps.here _
  -- from the clock on
  have hclock : ∀ t : State, t.request = none → Steps (t.goto .transferClock K)
      (toNormalReturn (tryThen (negotiateDefaults (hostSetClockFrequency .f25M t)) fun s =>
        tryThen (setBlockLength blockLen s) fun s => ((s.setCard s.card.fixBlockSize).setMode .transfer, .well)) K) := by
    intro t ht
    refine Steps.advance (at_goto t _ K ht) ?_
    show Steps (if cmd6Allowed (hostSetClockFrequency .f25M t).card then
      enterNegotiate 3 0 (.normalDrive :: K) (hostSetClockFrequency .f25M t)
      else normalSetsLength K (hostSetClockFrequency .f25M t)) _
    have hc : (hostSetClockFrequency .f25M t).request = none := ht
    generalize hostSetClockFrequency .f25M t = c at hc
    unfold negotiateDefaults
    by_cases h6 : cmd6Allowed c.card = true
    · rw [if_pos h6, if_pos h6, tryThen_assoc]
      refine run_normalTolerates 3 0 _ c _ _ K hc (fun _ _ => rfl) fun t ht => ?_
      exact run_normalTolerates 4 0 _ t _ _ K ht (fun _ _ => rfl) hlast
    · rw [if_neg h6, if_neg h6, tryThen_pure]
      exact hlast c hc
  unfold negotiateHighSpeed
  by_cases h6 : cmd6Allowed t.card = true
  · simp only [if_pos h6]
    exact run_normalTolerates 1 1 _ t _ _ K ht (fun _ _ => rfl) hclock
  · simp only [if_neg h6, tryThen_pure]
    exact hclock t ht

/-! ## detect (R291, R293) -/

/-- One call of `detect`. -/
theorem run_detectStep (p : State × Result) (k : State → State × Result) (next : State → State) (K : List Frame)
    (h : p.1.request = none) (hn : ∀ t : State, t.request = none → Steps (next t) (identifyReturn (k t) K)) :
    Steps (detectStep p.2 K p.1 next) (identifyReturn (tryThen p k) K) := by
  unfold detectStep
  by_cases h1 : p.2 = .well
  · rw [if_pos h1, tryThen_well p k h1]; exact hn _ h
  · rw [if_neg h1, tryThen_fail p k h1, identifyReturn, if_neg h1]; exact Steps.here _

theorem readCid_request (c : CmdReg) (s : State) (h : s.request = none) : (readCid c s).1.request = none :=
  tryThen_request _ _ (by rw [exchange_request]; exact h) fun _ ht => ht

theorem issueRca_request (s : State) (h : s.request = none) : (issueRca s).1.request = none := by
  rw [(issueRca_law s).1.request]; exact h

theorem switchVoltage_request (s : State) (h : s.request = none) : (switchVoltage s).1.request = none := by
  unfold switchVoltage
  split
  · exact h
  · refine tryThen_request _ _ (by rw [exchange_request]; exact h) fun t ht => ?_
    refine tryThen_request _ _ (by rw [checkR1_state]; exact ht) fun t ht => ?_
    exact tryThen_request _ _ ht fun _ ht => ht

theorem sendOpCond_request (a : Word) (s : State) (h : s.request = none) : (sendOpCond a s).1.request = none := by
  refine tryThen_request _ _ (by rw [appCmdPrefix_request]; exact h) fun t ht => ?_
  refine tryThen_request _ _ (by rw [exchange_request]; exact ht) fun t ht => ?_
  split <;> exact ht

/-- R291 steps 7 and 8: from the mode Ready to the end. -/
theorem run_identify (K : List Frame) (s : State) (h : s.request = none) :
    Steps (if s.host.supports1V8 && ocrS18A s.card.ocr then enterSwitchVoltage (.detectVoltage :: K) s else detectSendsCid K s)
      (identifyReturn (identify s) K) := by
  have hcid : ∀ t : State, t.request = none → Steps (detectSendsCid K t)
      (identifyReturn (tryThen (allSendCid t) fun s => tryThen (issueRca (s.setMode .identify)) fun s =>
        (s.setMode .standBy, .well)) K) := by
    intro t ht
    have hq : (allSendCid t).1.request = none := readCid_request _ t ht
    refine (run_readCid _ (.detectCid :: K) t ht).trans (Steps.answer hq ?_)
    simp only [answer, detectCidAnswered]
    rw [show readCid (newCmd 2#6 0#32 .r2) t = allSendCid t from rfl]
    refine run_detectStep _ _ _ K hq fun t ht => ?_
    have hq2 := issueRca_request (t.setMode .identify) ht
    refine (run_issueRca (.detectRca :: K) (t.setMode .identify) ht).trans (Steps.answer hq2 ?_)
    simp only [answer, detectRcaAnswered]
    exact run_detectStep _ _ _ K hq2 fun t _ => Steps.here _
  unfold identify detectVoltage
  by_cases h1 : (s.host.supports1V8 && ocrS18A s.card.ocr) = true
  · rw [if_pos h1, if_pos h1]
    have hq := switchVoltage_request s h
    refine (run_switchVoltage (.detectVoltage :: K) s h).trans (Steps.answer hq ?_)
    exact run_detectStep _ _ _ K hq hcid
  · rw [if_neg h1, if_neg h1, tryThen_pure]
    exact hcid s h

/-- R293: an iteration of the ACMD41 loop within the budget comes to the answer of its SendOpCond. -/
theorem run_opCondIteration_answer (v2 : Bool) (k : Nat) (K : List Frame) (s : State) (h : s.request = none)
    (hk : k ≤ s.params.acmd41LoopBudget) :
    Steps (s.goto (.opCondIteration v2 k) K)
      (detectOpCondAnswered v2 k (sendOpCond (acmd41Arg s v2) s).2 K (sendOpCond (acmd41Arg s v2) s).1) := by
  refine Steps.advance (at_goto s _ K h) ?_
  show Steps (if s.params.acmd41LoopBudget < k then _ else enterSendOpCond (acmd41Arg s v2) (.detectOpCond v2 k :: K) s) _
  rw [if_neg (by omega)]
  exact (run_sendOpCond _ (.detectOpCond v2 k :: K) s h).trans
    (Steps.answer (sendOpCond_request _ s h) (Steps.here _))

/-- R293: and, from there, to the end of `detect` or to the next iteration. -/
theorem run_opCondIteration (v2 : Bool) (k : Nat) (K : List Frame) (s : State) (h : s.request = none)
    (hk : k ≤ s.params.acmd41LoopBudget) :
    Steps (s.goto (.opCondIteration v2 k) K) (opCondReturn v2 k (sendOpCond (acmd41Arg s v2) s) K) := by
  refine (run_opCondIteration_answer v2 k K s h hk).trans ?_
  have hq := sendOpCond_request (acmd41Arg s v2) s h
  unfold opCondReturn detectOpCondAnswered
  generalize sendOpCond (acmd41Arg s v2) s = p at hq
  obtain ⟨t, r⟩ := p
  cases r
  case well => exact run_identify K (t.setMode .ready) hq
  all_goals exact Steps.here _

/-- R293: the loop is over when the budget is used up. -/
theorem run_opCondIteration_over (v2 : Bool) (k : Nat) (K : List Frame) (s : State) (h : s.request = none)
    (hk : s.params.acmd41LoopBudget < k) :
    Steps (s.goto (.opCondIteration v2 k) K) (s.endWith false (some .timeout) K) := by
  refine Steps.advance (at_goto s _ K h) ?_
  show Steps (if s.params.acmd41LoopBudget < k then _ else _) _
  rw [if_pos hk]
  exact Steps.here _

/-- R182: an attempt of CMD8 within the bound. -/
theorem run_ifCondAttempt (k : Nat) (last : Result) (K : List Frame) (s : State) (h : s.request = none)
    (hk : k ≤ s.params.cmd8MaxAttempts) :
    Steps (s.goto (.ifCondAttempt k last) K) (ifCondReturn k (sendIfCondAttempt s) K) := by
  refine Steps.advance (at_goto s _ K h) ?_
  show Steps (if s.params.cmd8MaxAttempts < k then _ else startExchange (newCmd 8#6 cmd8Arg .r7) (.ifCond k :: K) s) _
  rw [if_neg (by omega)]
  refine run_exchange_then _ _ K s _ h ?_
  unfold ifCondReturn sendIfCondAttempt tryThen
  simp only [answer, ifCondAnswered]
  generalize exchange (newCmd 8#6 cmd8Arg .r7) s = e
  by_cases h1 : e.2 = .well
  · by_cases h2 : r7Ok e.1.resp0 = true <;> simp [h1, h2] <;> exact Steps.here _
  · simp [h1]; exact Steps.here _

/-- R182: SendIfCond is over when the attempts are used up. -/
theorem run_ifCondAttempt_over (k : Nat) (last : Result) (K : List Frame) (s : State) (h : s.request = none)
    (hk : s.params.cmd8MaxAttempts < k) : Steps (s.goto (.ifCondAttempt k last) K) (s.giveBack last K) := by
  refine Steps.advance (at_goto s _ K h) ?_
  show Steps (if s.params.cmd8MaxAttempts < k then _ else _) _
  rw [if_pos hk]
  exact Steps.here _

/-! ## Teardown (R303) -/

theorem run_inactivate (K : List Frame) (s : State) (h : s.request = none) :
    Steps (enterInactivateDevice K s) ((inactivate s).endWith true (some .well) K) := by
  refine Steps.advance (at_goto s _ K h) ?_
  have h1 : (hostSetBusWidth .one s).request = none := h
  refine (run_selectCard false (.teardownDeselect :: K) (hostSetBusWidth .one s) h1).trans
    (Steps.answer (selectCard_request _ _ h1) ?_)
  have h2 := selectCard_request false _ h1
  refine (run_goIdle (.teardownIdle :: K) _ h2).trans (Steps.answer ?_ (Steps.here _))
  rw [(goIdle_law _).1.request]; exact h2

/-! ## The engine (R262 to R268) -/

theorem attempt_request (cur : Cursor) (n : Nat) (s : State) : (attempt cur n s).1.request = s.request := by
  obtain ⟨h1, h2⟩ := attempt_law cur n s
  by_cases h : r1Result s = .well
  · obtain ⟨a, b, _⟩ := h2 h
    by_cases hs : stopNeeded s.host n
    · exact (a hs).request
    · exact (b hs).request
  · exact (h1 h).1.request

/-- R264 to R267: the steps of an attempt and what follows it. -/
theorem run_attempt (cur : Cursor) (K : List Frame) (s : State) (h : s.request = none) :
    Steps (startAttempt cur K s) (attemptReturn cur (cur.blocks s) (attempt cur (cur.blocks s) s) K) := by
  unfold startAttempt
  rw [enterDataCommand_eq]
  refine run_checked_then _ _ K s _ h ?_
  set n := cur.blocks s with hn
  set d := blockDescriptor s cur.dir cur.buffer n with hd
  have hmov := dataCommand_moved cur.dir n (s.card.address cur.block) d s
  have ha : attempt cur n s =
      if (dataCommand cur.dir n (s.card.address cur.block) d s).2 ≠ .well then
        ((dataCommand cur.dir n (s.card.address cur.block) d s).1,
          .done (dataCommand cur.dir n (s.card.address cur.block) d s).2)
      else if (dataPhase cur.dir d (dataCommand cur.dir n (s.card.address cur.block) d s).1).2 ≠ .well then
        ((stopAfter n (dataPhase cur.dir d (dataCommand cur.dir n (s.card.address cur.block) d s).1).1).1, .dataFail)
      else ((stopAfter n (dataPhase cur.dir d (dataCommand cur.dir n (s.card.address cur.block) d s).1).1).1,
        .done (stopAfter n (dataPhase cur.dir d (dataCommand cur.dir n (s.card.address cur.block) d s).1).1).2) := rfl
  rw [ha]
  show Steps (commandedAnswered cur (dataCommand cur.dir n (s.card.address cur.block) d s).2 K
    (dataCommand cur.dir n (s.card.address cur.block) d s).1) _
  generalize hc : dataCommand cur.dir n (s.card.address cur.block) d s = c at hmov ⊢
  unfold commandedAnswered
  by_cases h1 : c.2 = .well
  · rw [if_pos h1, if_neg (not_not_intro h1)]
    have hcr : c.1.request = none := hmov.request.trans h
    refine Steps.advance (at_goto _ _ K hcr) ?_
    rw [show advance (.blockData cur) K (c.1.goto (.blockData cur) K) = blockDataCall cur K c.1 from by
      cases hdir : cur.dir <;> simp only [advance, blockDataCall, hdir] <;> rfl]
    have hbn : cur.blocks c.1 = n := by rw [hn]; unfold Cursor.blocks; rw [hmov.host]
    have hbd : blockDescriptor c.1 cur.dir cur.buffer n = d := by
      rw [hd]; unfold blockDescriptor; rw [hmov.host, hmov.card]
    unfold blockDataCall
    simp only [hbn, hbd]
    have hp : (dataPhase cur.dir d c.1).1.request = none := by
      cases hdir : cur.dir
      · exact (recvData_request d c.1).trans hcr
      · exact hcr
    have hph : (dataPhase cur.dir d c.1).1.host = s.host := by
      rw [(dataPhase_law cur.dir s cur.buffer n c.1).1.host, hmov.host]
    generalize dataPhase cur.dir d c.1 = p at hp hph
    have hpn : cur.blocks p.1 = n := by rw [hn]; unfold Cursor.blocks; rw [hph]
    have key : ∀ q : State × Result, q.1.request = none → q.1.host = s.host →
        attemptEnds cur (decide (p.2 = .well)) q.2 K q.1 =
          attemptReturn cur n (if p.2 ≠ .well then (q.1, .dataFail) else (q.1, .done q.2)) K := by
      intro q _ hqh
      have hqn : cur.blocks q.1 = n := by rw [hn]; unfold Cursor.blocks; rw [hqh]
      unfold attemptEnds attemptReturn
      by_cases h2 : p.2 = .well
      · rw [if_neg (by simp [h2]), if_neg (not_not_intro h2)]
        by_cases h3 : q.2 = .well
        · simp only [h3, hqn]
        · simp only [ne_eq, h3, not_false_eq_true, if_true]
      · rw [if_pos (by simp [h2]), if_pos h2]
    unfold stopAfter
    rw [hph]
    by_cases hs : 1 < n ∧ s.host.autoCmd12 = false
    · rw [if_pos (by rw [hmov.host]; exact hs), if_pos hs]
      have hst := (stopTransmission_ran p.1)
      refine (run_stopTransmission (.stopped cur (decide (p.2 = .well)) :: K) p.1 hp).trans
        (Steps.answer (hst.request.trans hp) ?_)
      rw [← key (stopTransmission p.1) (hst.request.trans hp) (hst.host.trans hph)]
      exact Steps.here _
    · rw [if_neg (by rw [hmov.host]; exact hs), if_neg hs]
      have := key (p.1, .well) hp hph
      simp only at this
      rw [this]
      exact Steps.here _
  · rw [if_neg h1, if_pos h1]
    unfold attemptReturn
    simp only [ne_eq, h1, not_false_eq_true, if_true]
    exact Steps.here _

/-- R263: a status poll, up to its answer. -/
theorem run_statusPoll_answer (cur : Cursor) (K : List Frame) (s : State) (h : s.request = none) :
    Steps (s.goto (.statusPoll cur) K) (polledAnswered cur (getStatus s).2 K (getStatus s).1) := by
  refine Steps.advance (at_goto s _ K h) ?_
  exact (run_getStatus (.polled cur :: K) s h).trans
    (Steps.answer (by rw [(getStatus_ran s).request]; exact h) (Steps.here _))

/-- R263: a status poll and what follows it. -/
theorem run_statusPoll (cur : Cursor) (K : List Frame) (s : State) (h : s.request = none) :
    Steps (s.goto (.statusPoll cur) K) (pollReturn cur (getStatus s) K) := by
  have hq : (getStatus s).1.request = none := by rw [(getStatus_ran s).request]; exact h
  refine (run_statusPoll_answer cur K s h).trans ?_
  unfold pollReturn polledAnswered
  generalize getStatus s = p at hq
  obtain ⟨t, r⟩ := p
  cases r
  case well => exact run_attempt cur K t hq
  all_goals exact Steps.here _

/-- R268: an erase chunk and what follows it. -/
theorem run_eraseChunk (block remaining : Nat) (K : List Frame) (s : State) (h : s.request = none) :
    Steps (s.goto (.eraseChunk block remaining) K)
      (eraseReturn block remaining (chunkSize s.host remaining) (eraseCommands block (chunkSize s.host remaining) s) K) := by
  refine Steps.advance (at_goto s _ K h) ?_
  show Steps (startChecked (newCmd 32#6 (s.card.address block) .r1) (.eraseStart block remaining :: K) s) _
  refine run_checked_then _ (.eraseStart block remaining) K s _ h ?_
  unfold eraseCommands tryThen
  simp only [answer, eraseStartAnswered]
  have hc := checkedExchange_ran (newCmd 32#6 (s.card.address block) .r1) s
  generalize checkedExchange (newCmd 32#6 (s.card.address block) .r1) s = a at hc
  by_cases h1 : a.2 = .well
  · rw [if_neg (not_not_intro h1), if_pos h1]
    rw [show chunkSize s.host remaining = chunkSize a.1.host remaining by rw [hc.host]]
    have ha := hc.request.trans h
    refine run_checked_then _ (.eraseEnd block remaining) K a.1 _ ha ?_
    simp only [answer, eraseEndAnswered]
    have hd := checkedExchange_ran (newCmd 33#6 (a.1.card.address (block + chunkSize a.1.host remaining - 1)) .r1) a.1
    generalize checkedExchange (newCmd 33#6 (a.1.card.address (block + chunkSize a.1.host remaining - 1)) .r1) a.1 = b at hd
    by_cases h2 : b.2 = .well
    · rw [if_neg (not_not_intro h2), if_pos h2]
      refine run_checked_then _ (.erased block remaining) K b.1 _ (hd.request.trans ha) ?_
      have he := checkedExchange_ran (newCmd 38#6 0#32 .r1b) b.1
      simp only [answer, erasedAnswered, eraseReturn]
      generalize checkedExchange (newCmd 38#6 0#32 .r1b) b.1 = c at he
      rw [he.host, hd.host]
      exact Steps.here _
    · rw [if_pos h2, if_neg h2, eraseReturn, if_pos h2]
      exact Steps.here _
  · rw [if_pos h1, if_neg h1, eraseReturn, if_pos h1]
    exact Steps.here _

end Sys2Proof.Machine
end

