-- ==== Sys2Proof/Tests/Slice0.lean ====
section
/-! SUPPORT. Tests: the well-formedness checks, the decoder on words written out from the spec, the vectors of
95_test_vectors.md, the short run of each instruction on a small state, and a witness of the premises of each obligation. -/

namespace Sys2Proof.Machine

set_option Elab.async false

/-! ## Well-formedness refuses operands without an encoding -/

theorem test_wf_accepts : (Instr.cmd6 .check 1 1).wf ∧ (Instr.cmd6 .switch 6 14).wf ∧ (Instr.cmd6 .switch 1 15).wf ∧
    (Instr.acmd6 1).wf ∧ (Instr.acmd6 4).wf ∧ (Instr.reservedOp 0).wf ∧ (Instr.reservedOp 9).wf ∧
    (Instr.reservedOp 15).wf := by decide
theorem test_wf_refuses_group_0 : ¬ (Instr.cmd6 .check 0 1).wf := by decide
theorem test_wf_refuses_group_7 : ¬ (Instr.cmd6 .check 7 1).wf := by decide
theorem test_wf_refuses_index_16 : ¬ (Instr.cmd6 .check 1 16).wf := by decide
theorem test_wf_refuses_second_spelling : ¬ (Instr.cmd6 .check 2 15).wf := by decide
theorem test_wf_refuses_width_2 : ¬ (Instr.acmd6 2).wf := by decide
theorem test_wf_refuses_assigned_op : ¬ (Instr.reservedOp 3).wf ∧ ¬ (Instr.reservedOp 8).wf := by decide

/-! ## Decoding words written out from the spec

The frames of 95_test_vectors.md section 2.2 (R80, R87 to R94); operation records of R97 in the layout of log 2. -/

theorem test_decode_cmd0 : decode (.frame 0x400000000095#48) = .ok .cmd0 := by rfl
theorem test_decode_cmd2 : decode (.frame 0x42000000004D#48) = .ok .cmd2 := by rfl
theorem test_decode_cmd3 : decode (.frame 0x430000000021#48) = .ok .cmd3 := by rfl
theorem test_decode_cmd6_check : decode (.frame 0x4600FFF0FF31#48) = .ok (.cmd6 .check 3 0) := by rfl
theorem test_decode_cmd6_switch : decode (.frame 0x46803FFFFF93#48) = .ok (.cmd6 .switch 6 3) := by rfl
theorem test_decode_cmd6_no_change : decode (.frame 0x4680FFFFFFD5#48) = .ok (.cmd6 .switch 1 15) := by rfl
theorem test_decode_cmd7_select : decode (.frame 0x471234000059#48) = .ok (.cmd7 true) := by rfl
theorem test_decode_cmd7_deselect : decode (.frame 0x470000000083#48) = .ok (.cmd7 false) := by rfl
theorem test_decode_cmd8 : decode (.frame 0x48000001AA87#48) = .ok .cmd8 := by rfl
theorem test_decode_cmd9 : decode (.frame 0x491234000075#48) = .ok .cmd9 := by rfl
theorem test_decode_cmd10 : decode (.frame 0x4A12340000C1#48) = .ok .cmd10 := by rfl
theorem test_decode_cmd11 : decode (.frame 0x4B0000000077#48) = .ok .cmd11 := by rfl
theorem test_decode_cmd12 : decode (.frame 0x4C0000000061#48) = .ok .cmd12 := by rfl
theorem test_decode_cmd13 : decode (.frame 0x4DB3680000EF#48) = .ok .cmd13 := by rfl
theorem test_decode_cmd15 : decode (.frame 0x4F123400000F#48) = .ok .cmd15 := by rfl
theorem test_decode_cmd16 : decode (.frame 0x500000020015#48) = .ok (.cmd16 512) := by rfl
theorem test_decode_cmd17 : decode (.frame 0x51FFFFFE009B#48) = .ok (.cmd17 0xFFFFFE00) := by rfl
theorem test_decode_cmd18 : decode (.frame 0x520000100093#48) = .ok (.cmd18 0x1000) := by rfl
theorem test_decode_cmd24 : decode (.frame 0x581234567867#48) = .ok (.cmd24 0x12345678) := by rfl
theorem test_decode_cmd25 : decode (.frame 0x590000000003#48) = .ok (.cmd25 0) := by rfl
theorem test_decode_cmd32 : decode (.frame 0x60000000643B#48) = .ok (.cmd32 0x64) := by rfl
theorem test_decode_cmd33 : decode (.frame 0x610000006761#48) = .ok (.cmd33 0x67) := by rfl
theorem test_decode_cmd38 : decode (.frame 0x6600000000A5#48) = .ok .cmd38 := by rfl
theorem test_decode_cmd55 : decode (.frame 0x77B368000087#48) = .ok .cmd55 := by rfl
theorem test_decode_acmd6_1 : decode (.frame 0x4600000000EF#48) = .ok (.acmd6 1) := by rfl
theorem test_decode_acmd6_4 : decode (.frame 0x4600000002CB#48) = .ok (.acmd6 4) := by rfl
theorem test_decode_acmd41 : decode (.frame 0x6941FF800011#48) = .ok (.acmd41 0x41FF8000) := by rfl
theorem test_decode_acmd51 : decode (.frame 0x7300000000C7#48) = .ok .acmd51 := by rfl
theorem test_decode_operations :
    [1, 2, 3, 4, 5, 6].map (decodeTableWord 4) =
      [some .allocateDevice, some .freeDevice, some .initialDevice, some .inactivateDevice, some .detect,
        some .toNormal] := by rfl
/-- V-EX-5. -/
theorem test_decode_rw_blocks : decode (.op 0x0000000080000000000000030000000827#136) =
    .ok (.rwBlocks (some 0x80000000) 8 3 .read) := by rfl
theorem test_decode_rw_blocks_write : decode (.op 0x0000000080001000000000020000000037#136) =
    .ok (.rwBlocks (some 0x80001000) 0 2 .write) := by rfl
theorem test_decode_rw_blocks_no_buffer : decode (.op 0x0000000080000000000000030000000807#136) =
    .ok (.rwBlocks none 8 3 .read) := by rfl
/-- V-EX-5: the buffer and the direction are ignored. -/
theorem test_decode_format_blocks : decode (.op 0x0000000080000000000000060000002038#136) =
    .ok (.formatBlocks 0x20 6) := by rfl
theorem test_decode_reserved : [0, 9, 15].map (decodeTableWord 4) =
    [some (.reservedOp 0), some (.reservedOp 9), some (.reservedOp 15)] := by rfl

theorem test_decode_refuses_start_bit : decode (.frame 0xC00000000095#48) = .error .badStartBits := by rfl
theorem test_decode_refuses_response : decode (.frame 0x000000000095#48) = .error .badStartBits := by rfl
theorem test_decode_refuses_stop_bit : decode (.frame 0x400000000094#48) = .error .badStopBit := by rfl
theorem test_decode_refuses_index : decode (.frame 0x410000000001#48) = .error (.unknownIndex 1) := by rfl
theorem test_decode_refuses_crc : decode (.frame 0x400000000097#48) = .error (.badArgument 0) := by rfl
theorem test_decode_refuses_width_code : decode (.frame 0x460000000101#48) = .error (.badArgument 6) := by rfl
theorem test_decode_refuses_low_half : decode (.frame 0x491234000175#48) = .error (.badArgument 9) := by rfl

/-- Argument bits that R91 marks 0. -/
theorem test_decode_refuses_acmd41_bits :
    [0x69C0FF800001#48, 0x6942FF800001#48, 0x6960FF800001#48].map (fun f => decode (.frame f)) =
      [.error (.badArgument 41), .error (.badArgument 41), .error (.badArgument 41)] := by decide

/-- The encoder writes the same words. -/
theorem test_encode_frames :
    [encode 0x1234 (.cmd6 .switch 1 1), encode 0x1234 (.cmd7 true), encode 0xB368 .cmd13, encode 0 (.cmd17 0x12345678)] =
      [.frame 0x4680FFFFF129, .frame 0x471234000059, .frame 0x4DB3680000EF, .frame 0x51123456785D] := by decide +kernel

/-! ## Vectors of the framer and the codec -/

/-- V-CRC-1 to V-CRC-8. -/
theorem test_crc7_vectors :
    [[0x00, 0x00, 0x00, 0x00, 0x00], [0x40, 0x00, 0x00, 0x00, 0x00], [0x00, 0x00, 0x00, 0x00, 0x01],
      [0x00, 0x00, 0x00, 0x00, 0x80], [0x00, 0x00, 0x00, 0x00, 0xFF], [0x80, 0x00, 0x00, 0x00, 0x00],
      [0xFF, 0xFF, 0xFF, 0xFF, 0xFF], [0x7F, 0xFF, 0xFF, 0xFF, 0xFF]].map crc7 =
      [0x00, 0x4A, 0x09, 0x41, 0x79, 0x1D, 0x11, 0x0C] := by decide +kernel
/-- V-CRC-10, V-CRC-12. -/
theorem test_frame_validation : frameValid 0x51123456785D#48 = true ∧ frameValid 0x51123456785F#48 = false ∧
    startBits 0xD1 = 0x51 := by decide +kernel
/-- R83: an R1 with payload 0x900 to CMD17 (its CRC7 0x33 worked out from R161), an R3, and the types without a short response. -/
theorem test_short_responses :
    shortResponseFrame .r1 17 0x900 = some 0x110000090067#48 ∧
      shortResponseFrame .r3 41 0xC0FF8000 = some 0x3FC0FF8000FF#48 ∧
      shortResponseFrame .r2 2 0 = none ∧ shortResponseFrame .none 0 0 = none := by decide +kernel
/-- V-R1-2, 3, 4, 6, 9, 10, 12, 13. -/
theorem test_status_ready :
    [0x00000008, 0x00080900, 0x80000900, 0x00040900, 0x0007FFF7, 0x00000800, 0x00000F00, 0x00000B00].map
        (fun w => (r1Ok w, statusReady w)) =
      [(false, false), (false, false), (false, false), (true, true), (true, true), (true, false), (true, false),
        (true, true)] := by decide +kernel
/-- R127, R128: every field, of the payload of V-CTL-13 with status bits set, and of V-CTL-3's. -/
theorem test_r6_r7_fields :
    r6Fields 0x1234A520 = ⟨0x1234, true, false, true, 0x0520⟩ ∧ r7Fields 0x1AA = ⟨1, 0xAA⟩ := by decide
/-- V-CSD-1, V-CSD-4, V-CSD-6. -/
theorem test_csd_v1 :
    [0x002600325F5900EBF6D94F801640009B, 0x002600325F5A00EBF6D94F8016800099, 0x002600325F5C03FFF6DBCF80170000C3].map
        (fun r => geometryV1 (csdV1 r)) =
      [⟨15104, 512, 7733248⟩, ⟨15104, 1024, 15466496⟩, ⟨2097152, 4096, 8589934592⟩] := by decide +kernel
/-- V-CSD-2, V-CSD-5. -/
theorem test_csd_v2 :
    [0x400E00325B59000010107F800A4000B7, 0x400E00325B59003FFFFF7F800A400039].map (fun r => geometryV2 (csdV2 r)) =
      [⟨4211712, 512, 2156396544⟩, ⟨4294967296, 512, 2199023255552⟩] := by decide +kernel
/-- V-CID-1. -/
theorem test_cid : registerOfWords ⟨0x78013A01, 0x80123456, 0x55303847, 0x03534453⟩ =
    0x03534453553038478012345678013A01 := by decide +kernel
/-- V-SCR-1 to V-SCR-5. -/
theorem test_versions :
    [0x0235844300000000, 0x0025000000000000, 0x0125000000000000, 0x0235000000000000, 0x0335800000000000].map versionOf =
      [3, 0, 1, 2, 3] := by decide +kernel

/-- The payload V-SW-3: `SW0` with other current functions. -/
def switchPayload3 : List Byte :=
  [0x00, 0x64, 0x80, 0x01, 0x80, 0x01, 0x80, 0x01, 0x80, 0x01, 0x80, 0x01, 0x80, 0x03, 0x21, 0x43, 0x65] ++
    List.replicate 47 0

/-- The payload `SW0` of the default card. -/
def switchPayload0 : List Byte :=
  [0x00, 0x64, 0x80, 0x01, 0x80, 0x01, 0x80, 0x01, 0x80, 0x01, 0x80, 0x01, 0x80, 0x03, 0x00, 0x00, 0x01] ++
    List.replicate 47 0

/-- V-SW-3. -/
theorem test_switch_status :
    ((Card.initial true).withSwitchStatus switchPayload3).fnSupport = ⟨0x8003, 0x8001, 0x8001, 0x8001, 0x8001, 0x8001⟩ ∧
      ((Card.initial true).withSwitchStatus switchPayload3).fnCurrent = ⟨5, 6, 3, 4, 1, 2⟩ := by decide
/-- V-FIX-1, V-FIX-2. -/
theorem test_fix_up :
    ({ Card.initial true with blockCount := 15104, blockSize := 1024, capacity := 15466496 } : Card).fixBlockSize.blockCount
        = 30208 ∧
      ({ Card.initial true with blockCount := 2097152, blockSize := 4096, capacity := 8589934592 }
        : Card).fixBlockSize.blockCount = 16777216 := by decide

/-! ## Small states -/

/-- A response whose first word is given. -/
def shortResponse (w : Word) : ResponseWords := ⟨w, 0, 0, 0⟩

/-- An allocated card in StandBy at RCA 0x1234. -/
def standByCard : Card := { Card.initial true with rca := 0x1234, mode := ModeName.standBy.bits }

/-- An idle block with this card, whose host answers so and acquires storage. -/
def smallState (c : Card) (sends : List HostResult) (responses : List Word) : State :=
  { State.reset with
    card := c
    env :=
      { Environment.unscripted with
        sendCommands := sends
        responses := responses.map shortResponse
        acquisitions := [true, true, true, true, true, true, true] } }

/-- The same with a payload that `recv_data` delivers. -/
def withData (s : State) (a : HostResult) (bytes : List Byte) : State :=
  { s with env := { s.env with recvDatas := [(a, bytes), (a, bytes)] } }

/-- The request's next `n` steps at most, up to its end. -/
def settle (n : Nat) (o : Host.Outcome State Fault Refusal) : Host.Outcome State Fault Refusal :=
  match n with
  | 0 => o
  | n + 1 =>
    match o with
    | .next t => if t.control = .idle then .next t else settle n (step t)
    | .fault f => .fault f
    | .refused r => .refused r

/-- The short run of an instruction. -/
def ran (i : Instr) (s : State) : Host.Outcome State Fault Refusal := settle 24 (exec i s)

/-- What a test looks at: the code, the frames, the card. -/
def seen (o : Host.Outcome State Fault Refusal) : Option (Option Result × List (BitVec 48) × Card) :=
  match o with
  | .next t => some (t.outcome.bind OpResult.code, wireTrace t, t.card)
  | .fault f => nomatch f
  | .refused _ => none

/-- The number of host-port calls of the request. -/
def calls (o : Host.Outcome State Fault Refusal) : Option Nat :=
  match o with
  | .next t => some t.trace.length
  | .fault f => nomatch f
  | .refused _ => none

/-! ## The run of each instruction (vectors V-CTL, V-BT, V-LC) -/

/-- V-CTL-1: the pre-drain and CMD0 are two calls. -/
theorem test_cmd0_well : seen (ran .cmd0 (smallState standByCard [.well] [0])) =
    some (some .well, [0x400000000095], { standByCard with mode := ModeName.idle.bits, rca := 0 }) ∧
    calls (ran .cmd0 (smallState standByCard [.well] [0])) = some 2 := by decide +kernel
/-- V-CTL-2. -/
theorem test_cmd0_fails : seen (ran .cmd0 (smallState standByCard [.error .sendCmdFail] [0])) =
    some (some .sendCmdFail, [0x400000000095], standByCard) := by decide +kernel
/-- V-CTL-11. -/
theorem test_cmd2 :
    seen (ran .cmd2
      { State.reset with
        card := standByCard
        env :=
          { Environment.unscripted with
            sendCommands := [.well]
            responses := [⟨0x78013A01, 0x80123456, 0x55303847, 0x03534453⟩] } }) =
      some (some .well, [0x42000000004D],
        { standByCard with cid := 0x03534453553038478012345678013A01, cidValid := true }) := by decide +kernel
/-- V-CTL-12. -/
theorem test_cmd3 : seen (ran .cmd3 (smallState (Card.initial true) [.well] [0x12340500])) =
    some (some .well, [0x430000000021], { Card.initial true with rca := 0x1234 }) := by decide +kernel
/-- V-CTL-13. -/
theorem test_cmd3_error_bits : seen (ran .cmd3 (smallState (Card.initial true) [.well] [0x1234E500])) =
    some (some .anyError, [0x430000000021], Card.initial true) := by decide +kernel
/-- V-CTL-34. -/
theorem test_cmd6 :
    seen (ran (.cmd6 .check 1 1) (withData (smallState standByCard [.well] [0x900]) .well switchPayload0)) =
      some (some .well, [0x4600FFFFF11F],
        { standByCard with
          fnSupport := ⟨0x8003, 0x8001, 0x8001, 0x8001, 0x8001, 0x8001⟩
          fnCurrent := ⟨1, 0, 0, 0, 0, 0⟩
          fnValid := true }) := by decide +kernel
/-- V-CTL-32. -/
theorem test_cmd6_group_7 : seen (ran (.cmd6 .check 7 0) (smallState standByCard [] [])) =
    some (some .argFault, [], standByCard) := by decide +kernel
/-- V-CTL-19. -/
theorem test_cmd7_select : seen (ran (.cmd7 true) (smallState standByCard [.well] [0x700])) =
    some (some .well, [0x471234000059], standByCard) := by decide +kernel
/-- V-CTL-20: no response is read, so the call is one. -/
theorem test_cmd7_deselect : seen (ran (.cmd7 false) (smallState standByCard [.well] [])) =
    some (some .well, [0x470000000083], standByCard) ∧
    calls (ran (.cmd7 false) (smallState standByCard [.well] [])) = some 1 := by decide +kernel
/-- V-CTL-3. -/
theorem test_cmd8 : seen (ran .cmd8 (smallState standByCard [.well] [0x1AA])) =
    some (some .well, [0x48000001AA87], standByCard) := by decide +kernel
/-- V-CTL-5, the steps of the first attempt: no result yet. -/
theorem test_cmd8_mismatch : seen (settle 5 (exec .cmd8 (smallState standByCard [.well] [0x1AB]))) =
    some (none, [0x48000001AA87], standByCard) := by decide +kernel
/-- V-CTL-17. -/
theorem test_cmd9 :
    seen (ran .cmd9
      { State.reset with
        card := standByCard
        env :=
          { Environment.unscripted with
            sendCommands := [.well]
            responses := [⟨0x0A4000B7, 0x10107F80, 0x5B590000, 0x400E0032⟩] } }) =
      some (some .well, [0x491234000075],
        { standByCard with
          csd := 0x400E00325B59000010107F800A4000B7
          csdValid := true
          blockCount := 4211712
          blockSize := 512
          capacity := 2156396544 }) := by decide +kernel
/-- V-CTL-18. -/
theorem test_cmd9_structure_3 :
    seen (ran .cmd9
      { State.reset with
        card := standByCard
        env :=
          { Environment.unscripted with
            sendCommands := [.well]
            responses := [⟨0x0A4000B7, 0x10107F80, 0x5B590000, 0xC00E0032⟩] } }) =
      some (some .notSupported, [0x491234000075], standByCard) := by decide +kernel
theorem test_cmd10 : seen (ran .cmd10 (smallState standByCard [.well] [5])) =
    some (some .well, [0x4A12340000C1], { standByCard with cid := 5, cidValid := true }) := by decide +kernel
/-- V-CTL-15. -/
theorem test_cmd11_refused : seen (ran .cmd11 (smallState standByCard [.well] [0x900])) =
    some (some .notSupported, [], standByCard) := by decide +kernel

/-- A card in Ready that accepts 1.8 V, on a host that supports it. -/
def voltageState (sends : List HostResult) (responses : List Word) (voltages : List HostResult) : State :=
  { smallState { Card.initial true with mode := ModeName.ready.bits, ocr := 0xC1FF8000 } sends responses with
    host := { defaultHost with supports1V8 := true }
    env :=
      { (smallState (Card.initial true) sends responses).env with voltages := voltages } }

/-- V-CTL-14. -/
theorem test_cmd11 : seen (ran .cmd11 (voltageState [.well] [0x900] [.well])) =
    some (some .well, [0x4B0000000077],
      { Card.initial true with mode := ModeName.ready.bits, ocr := 0xC1FF8000, voltage := 1 }) := by decide +kernel
/-- V-CTL-26. -/
theorem test_cmd12 : seen (ran .cmd12 (smallState standByCard [.well] [0x400900])) =
    some (some .transStopFail, [0x4C0000000061], standByCard) := by decide +kernel
/-- V-CTL-27. -/
theorem test_cmd12_timeout : seen (ran .cmd12 (smallState standByCard [.error .timeout] [])) =
    some (some .transStopFail, [0x4C0000000061], standByCard) := by decide +kernel
/-- V-CTL-25. -/
theorem test_cmd13_programming : seen (ran .cmd13 (smallState standByCard [.well] [0xE00])) =
    some (some .notReady, [0x4D12340000D7], standByCard) := by decide +kernel
/-- V-R1-12: programming blocks even with READY_FOR_DATA. -/
theorem test_cmd13_programming_ready : seen (ran .cmd13 (smallState standByCard [.well] [0xF00])) =
    some (some .notReady, [0x4D12340000D7], standByCard) := by decide +kernel
/-- V-CTL-28. -/
theorem test_cmd15 : seen (ran .cmd15 (smallState standByCard [.well] [])) =
    some (some .well, [0x4F123400000F], { standByCard with mode := ModeName.inactive.bits }) := by decide +kernel
/-- V-CTL-29. -/
theorem test_cmd16 : seen (ran (.cmd16 512) (smallState standByCard [.well] [0x20000900])) =
    some (some .anyError, [0x500000020015], standByCard) := by decide +kernel
/-- V-CTL-36. -/
theorem test_cmd17 : seen (ran (.cmd17 0) (smallState standByCard [.well] [0x40000900])) =
    some (some .anyError, [0x510000000055], standByCard) := by decide +kernel
theorem test_cmd18 : seen (ran (.cmd18 0x1000) (smallState standByCard [.well] [0x900])) =
    some (some .well, [0x520000100093], standByCard) := by decide +kernel
theorem test_cmd24 : seen (ran (.cmd24 0x12345678) (smallState standByCard [.well] [0x900])) =
    some (some .well, [0x581234567867], standByCard) := by decide +kernel
theorem test_cmd25 : seen (ran (.cmd25 0) (smallState standByCard [.well] [0x900])) =
    some (some .well, [0x590000000003], standByCard) := by decide +kernel
theorem test_cmd32 : seen (ran (.cmd32 0x64) (smallState standByCard [.well] [0x900])) =
    some (some .well, [0x60000000643B], standByCard) := by decide +kernel
theorem test_cmd33 : seen (ran (.cmd33 0x67) (smallState standByCard [.well] [0x10000900])) =
    some (some .anyError, [0x610000006761], standByCard) := by decide +kernel
/-- V-CTL-37. -/
theorem test_cmd38 : seen (ran .cmd38 (smallState standByCard [.well] [0x08000900])) =
    some (some .anyError, [0x6600000000A5], standByCard) := by decide +kernel
/-- V-CTL-7. -/
theorem test_cmd55 : seen (ran .cmd55 (smallState (Card.initial true) [.well] [0x100])) =
    some (some .notSupported, [0x770000000065], Card.initial true) := by decide +kernel
/-- V-CTL-30. -/
theorem test_acmd6 : seen (ran (.acmd6 4) (smallState standByCard [.well, .well] [0x920, 0x900])) =
    some (some .well, [0x7712340000BF, 0x4600000002CB], standByCard) := by decide +kernel
/-- V-CTL-31. -/
theorem test_acmd6_width_2 : seen (ran (.acmd6 2) (smallState standByCard [] [])) =
    some (some .argFault, [], standByCard) := by decide +kernel
/-- V-CTL-8. -/
theorem test_acmd41_busy :
    seen (ran (.acmd41 0x40FF8000) (smallState (Card.initial true) [.well, .well] [0x120, 0x00FF8000])) =
      some (some .retry, [0x770000000065, 0x6940FF800017], Card.initial true) := by decide +kernel
/-- V-CTL-9. -/
theorem test_acmd41_done :
    seen (ran (.acmd41 0x40FF8000) (smallState (Card.initial true) [.well, .well] [0x120, 0xC0FF8000])) =
      some (some .well, [0x770000000065, 0x6940FF800017], { Card.initial true with ocr := 0xC0FF8000 }) := by
  decide +kernel
/-- V-CTL-22. -/
theorem test_acmd51 :
    seen (ran .acmd51 (withData (smallState standByCard [.well, .well] [0x920, 0x900]) .well
        [0x02, 0x35, 0x84, 0x43, 0x00, 0x00, 0x00, 0x00])) =
      some (some .well, [0x7712340000BF, 0x7300000000C7],
        { standByCard with scr := 0x0235844300000000, scrValid := true, version := 3 }) := by decide +kernel
/-- V-CTL-24. -/
theorem test_acmd51_data_fails :
    seen (ran .acmd51 (withData (smallState standByCard [.well, .well] [0x920, 0x900]) (.error .recvDataFail) [])) =
      some (some .recvDataFail, [0x7712340000BF, 0x7300000000C7], standByCard) := by decide +kernel
/-- V-LC-20: A0. -/
theorem test_allocate_device : seen (ran .allocateDevice (smallState (Card.initial false) [] [])) =
    some (some .well, [], Card.initial true) := by decide +kernel
/-- An idle block with no Card whose host supplies these functions. -/
def withFunctions (m : FramingMode) (f : HostFunctions) : State :=
  { smallState (Card.initial false) [] [] with host := { defaultHost with framing := m, functions := f } }

/-- V-LC-19. -/
theorem test_allocate_device_no_switch_voltage :
    seen (ran .allocateDevice (withFunctions .coreCRC7 { defaultHost.functions with switchVoltage := false })) =
      some (none, [], Card.initial false) := by decide +kernel
/-- V-LC-20, and the same interface under the host's framing (R301). -/
theorem test_allocate_device_no_add_framing :
    seen (ran .allocateDevice (withFunctions .coreCRC7 { defaultHost.functions with addFraming := false })) =
        some (some .well, [], Card.initial true) ∧
      seen (ran .allocateDevice (withFunctions .hostOverride { defaultHost.functions with addFraming := false })) =
        some (none, [], Card.initial false) := by decide +kernel
/-- V-LC-17. -/
theorem test_allocate_device_twice : seen (ran .allocateDevice (smallState standByCard [] [])) =
    some (none, [], standByCard) := by decide +kernel
/-- V-LC-15. -/
theorem test_free_device : seen (ran .freeDevice (smallState standByCard [.well, .well] [0])) =
    some (some .well, [0x470000000083, 0x400000000095],
      { standByCard with rca := 0, mode := ModeName.inactive.bits, allocated := false }) := by decide +kernel
/-- V-LC-14. -/
theorem test_inactivate_device : seen (ran .inactivateDevice (smallState standByCard [.error .crcErr, .error .timeout] [0])) =
    some (some .well, [0x470000000083, 0x400000000095], { standByCard with mode := ModeName.inactive.bits }) := by
  decide +kernel
/-- V-LC-9. -/
theorem test_to_normal_refused : seen (ran .toNormal (smallState (Card.initial true) [] [])) =
    some (none, [], Card.initial true) := by decide +kernel
/-- V-EX-2. -/
theorem test_to_normal_fails : seen (ran .toNormal (smallState standByCard [.error .crcErr, .error .timeout] [])) =
    some (some .crcErr, [0x491234000075, 0x470000000083], standByCard) := by decide +kernel

/-- An allocated card that is in the slot, or not, and activates, or not. -/
def slotState (inserted activated : Bool) (sends : List HostResult) (responses : List Word) : State :=
  { smallState (Card.initial true) sends responses with
    env :=
      { (smallState (Card.initial true) sends responses).env with inserted := [inserted], activated := [activated] } }

/-- V-LC-2. -/
theorem test_detect_not_activated : seen (ran .detect (slotState true false [] [])) =
    some (none, [], { Card.initial true with clockClass := .f400K }) := by decide +kernel
/-- V-LC-5. -/
theorem test_detect_no_app_cmd : seen (ran .detect (slotState true true [.well, .well, .well] [0, 0x1AA, 0x100])) =
    some (some .notSupported, [0x400000000095, 0x48000001AA87, 0x770000000065],
      { Card.initial true with clockClass := .f400K, mode := ModeName.idle.bits }) := by decide +kernel
/-- V-LC-3. -/
theorem test_initial_device_cmd0_fails : seen (ran .initialDevice (slotState true true [.error .sendCmdFail] [0])) =
    some (some .sendCmdFail, [0x400000000095], { Card.initial true with clockClass := .f400K }) := by decide +kernel

/-- A card in Transfer with the given geometry, block addressed. -/
def transferCard (count : BitVec 64) (size : BitVec 32) : Card :=
  { standByCard with
    mode := ModeName.transfer.bits
    ocr := 0xC0FF8000
    blockCount := count
    blockSize := size
    capacity := count * size.zeroExtend 64 }

/-- V-BT-4. -/
theorem test_rw_blocks_last_block :
    seen (ran (.rwBlocks (some 0x1000) 4211711 1 .read)
        (withData (smallState (transferCard 4211712 2) [.well, .well] [0x900, 0x900]) .well [7, 8])) =
      some (some .well, [0x4D12340000D7, 0x51004043FF8B], transferCard 4211712 2) := by decide +kernel
/-- V-BT-5. -/
theorem test_rw_blocks_past_the_end :
    seen (ran (.rwBlocks (some 0x1000) 4211711 2 .read) (smallState (transferCard 4211712 512) [] [])) =
      some (some .argFault, [], transferCard 4211712 512) := by decide +kernel
/-- The descriptors that the commands carried and those that the data phases had, in their order. -/
def descriptors (o : Host.Outcome State Fault Refusal) : Option (List Descriptor × List Descriptor) :=
  match o with
  | .next t =>
    some
      (t.trace.reverse.filterMap fun e =>
          match e with
          | .sendCommand c _ => c.data
          | _ => none,
        t.trace.reverse.filterMap fun e =>
          match e with
          | .recvData d _ _ => some d
          | .sendData d _ _ => some d
          | _ => none)
  | .fault f => nomatch f
  | .refused _ => none

/-- A transfer on a host that answers every exchange `Well` with 0x900, on a card of 100 blocks of 2 bytes. -/
def transferState (h : HostPort) : State :=
  let s := smallState (transferCard 100 2) [.well, .well, .well, .well, .well] [0x900, 0x900, 0x900, 0x900, 0x900]
  { s with
    host := h
    env := { s.env with recvDatas := [(.well, [1, 2, 3, 4]), (.well, [5, 6])], sendDatas := [.well] } }

/-- V-BT-15 with blocks of 2 bytes: two transactions, each with its descriptor (R38, R39, R262). -/
theorem test_read_descriptors :
    descriptors (settle 40 (exec (.rwBlocks (some 0x1000) 10 3 .read)
        (transferState { defaultHost with maxBlockCount := 2 }))) =
      some ([⟨2, 2, 4, some (.system 0x1000), none, 1⟩, ⟨2, 1, 2, some (.system 0x1004), none, 1⟩],
        [⟨2, 2, 4, some (.system 0x1000), none, 1⟩, ⟨2, 1, 2, some (.system 0x1004), none, 1⟩]) := by decide +kernel
/-- V-BT-11 with blocks of 2 bytes: AutoStopAfterMultiBlock (R39), and no CMD12. -/
theorem test_write_descriptors :
    descriptors (ran (.rwBlocks (some 0x1000) 0 2 .write) (transferState { defaultHost with autoCmd12 := true })) =
      some ([⟨2, 2, 4, none, some 0x1000, 2⟩], [⟨2, 2, 4, none, some 0x1000, 2⟩]) := by decide +kernel
/-- R189, R199: the descriptors of the payloads. -/
theorem test_payload_descriptors :
    descriptors (ran .acmd51 (withData (smallState standByCard [.well, .well] [0x920, 0x900]) .well [2, 0x35, 0x84, 0x43])) =
        some ([⟨8, 1, 8, some .payload, none, 1⟩], [⟨8, 1, 8, some .payload, none, 1⟩]) ∧
      descriptors (ran (.cmd6 .check 1 1) (withData (smallState standByCard [.well] [0x900]) .well switchPayload0)) =
        some ([⟨64, 1, 64, some .payload, none, 1⟩], [⟨64, 1, 64, some .payload, none, 1⟩]) := by decide +kernel
/-- V-BT-18. -/
theorem test_format_blocks :
    seen (ran (.formatBlocks 100 1) (smallState (transferCard 4211712 512) [.well, .well, .well] [0x900, 0x900, 0x900])) =
      some (some .well, [0x60000000643B, frameOf 33 0x64, 0x6600000000A5], transferCard 4211712 512) := by decide +kernel
/-- V-BT-19: byte addresses. -/
theorem test_format_blocks_byte_addresses :
    seen (ran (.formatBlocks 2 2)
        (smallState { transferCard 30208 512 with ocr := 0x80FF8000 } [.well, .error .timeout] [0x900])) =
      some (some .timeout, [frameOf 32 0x400, frameOf 33 0x600], { transferCard 30208 512 with ocr := 0x80FF8000 }) := by
  decide +kernel
/-- V-EX-4. -/
theorem test_reserved_op : seen (exec (.reservedOp 9) (smallState standByCard [] [])) = none := by decide +kernel
/-- R98: a reserved op code without a host reference, on an unallocated Card. -/
theorem test_reserved_op_describe :
    seen (step { State.reset with request := some ⟨.op 9, false, none⟩ }) = none := by decide +kernel
/-- R98: `allocate_device` without a host reference. -/
theorem test_allocate_describe :
    seen (step { smallState (Card.initial false) [] [] with request := some ⟨.op 1, false, none⟩ }) =
      some (some .well, [], Card.initial true) := by decide +kernel
/-- R16: one host-port call in a step. -/
theorem test_one_call_a_step :
    [0, 1, 2, 3, 4].map (fun n => calls (settle n (exec .cmd2 (smallState standByCard [.well] [0])))) =
      [some 0, some 1, some 2, some 2, some 2] := by decide +kernel
/-- V-CTL-38, V-CTL-39. -/
theorem test_describe :
    describe standByCard none (.cmd6 .switch 1 1) = some ⟨6, 0x80FFFFF1, .r1, some ⟨1, 64, .read⟩⟩ ∧
      describe standByCard none (.cmd7 false) = some ⟨7, 0, .none, none⟩ := by decide +kernel
/-- The received bytes stand in the buffer, the byte after it is unchanged. -/
theorem test_memory :
    ((Memory.writeBytes [(0x1002, 5)] 0x1000 [7, 8]).read 0x1001 = 8) ∧
      (Memory.writeBytes [(0x1002, 5)] 0x1000 [7, 8]).read 0x1002 = 5 ∧
      (Memory.writeBytes [(0x1002, 5)] 0x1000 [7, 8]).wf ∧ Memory.writeBytes [(3, 5)] 3 [0] = [] := by decide

/-! ## Witnesses of the premises of the statements

Each theorem shows, clause by clause, concrete states and operands that meet the premises of the statement it names. -/

/-- Whether an outcome is a next state. -/
def isNext (o : Host.Outcome State Fault Refusal) : Bool :=
  match o with
  | .next _ => true
  | .fault f => nomatch f
  | .refused _ => false

theorem next_of_isNext {o : Host.Outcome State Fault Refusal} (h : isNext o = true) : ∃ t, o = .next t := by
  cases o with
  | next t => exact ⟨t, rfl⟩
  | fault f => exact nomatch f
  | refused r => cases h

/-- The state a request begins in. -/
def begun (i : Instr) (s : State) : State :=
  match exec i s with
  | .next t => t
  | _ => s

/-- The state after `n` steps. -/
def later (n : Nat) (s : State) : State :=
  match n with
  | 0 => s
  | n + 1 =>
    match step s with
    | .next t => later n t
    | _ => s

theorem steps_later (n : Nat) (s : State) : Steps s (later n s) := by
  induction n generalizing s with
  | zero => exact Steps.here s
  | succ n ih =>
    unfold later
    split
    · next t h => exact Steps.step s t _ h (ih t)
    · exact Steps.here s

theorem exec_begun {i : Instr} {s : State} (h : isNext (exec i s) = true) : exec i s = .next (begun i s) := by
  obtain ⟨t, ht⟩ := next_of_isNext h
  rw [ht, begun, ht]

/-- The state `n` steps into the run of an instruction. -/
theorem run_later {i : Instr} {s : State} (n : Nat) (h : isNext (exec i s) = true) : RunOf i s (later n (begun i s)) :=
  ⟨_, exec_begun h, steps_later n _⟩

/-- A block in the middle of an operation. -/
def standing (p : Point) (stack : List Frame) (s : State) : State := { s with control := .running p stack }

/-- A block with these parameters. -/
def limited (p : Params) (s : State) : State := { s with params := p }

/-- A transfer of three blocks from block 10. -/
def readCursor : Cursor := { dir := .read, buffer := 0x1000, block := 10, remaining := 3, retry := 0, polls := 0 }

/-- A host with this many blocks in a transaction. -/
def withMax (n : Nat) (s : State) : State := { s with host := { s.host with maxBlockCount := n } }

/-- A ready card in Transfer, every exchange answered `Well` with an R1 of 0x900. -/
def readyCard (sends : List HostResult) : State :=
  smallState (transferCard 100 2) sends [0x900, 0x900, 0x900, 0x900]

/-- A block with this request at its port. -/
def requested (r : Request) (s : State) : State := { s with request := some r }

theorem test_witness_decode_round_trip :
    (WellFormed (.cmd7 true) ∧ (1#16 : BitVec 16) ≠ 0#16) ∧ WellFormed (.cmd6 .switch 6 14) ∧
      WellFormed (.cmd6 .check 1 15) ∧ WellFormed (.acmd6 4) ∧ WellFormed (.acmd41 0x41FFFFFF) ∧
      WellFormed (.reservedOp 15) ∧ WellFormed (.rwBlocks none 0 0 .write) ∧ (1 ≤ 6 ∧ 6 ≤ 6) := by decide
theorem test_witness_decoded_frames :
    decode (.frame 0x4600FFFFF11F#48) = .ok (.cmd6 .check 1 1) ∧ decode (.op 9) = .ok (.reservedOp 9) := by
  exact ⟨rfl, rfl⟩
/-- The types with a short response: with the frame's own index and CRC7, and R3. -/
theorem test_witness_fields :
    (ResponseType.r3 ≠ .none ∧ ResponseType.r3 ≠ .r2) ∧ ResponseType.r1 ≠ .none ∧ ResponseType.r1 ≠ .r2 ∧
      ResponseType.r1 ≠ .r3 := by decide
theorem test_witness_flip : (0 : Nat) < 40 ∧ 39 < 40 := by decide
theorem test_witness_all_error :
    r1Ok 0x0007FFF7 = true ∧ r1Ok 0x00080000 = false ∧ r1Ok 0x80000000 = false ∧ r1Ok 8 = false := by decide
theorem test_witness_versions :
    ((0x00 : BitVec 64).extractLsb 59 56 = 0#4) ∧ ((0x0100000000000000 : BitVec 64).extractLsb 59 56 = 1#4) ∧
      ((0x0200000000000000 : BitVec 64).extractLsb 59 56 = 2#4 ∧ (0x0200000000000000 : BitVec 64).getLsbD 47 = false) ∧
      ((0x0200800000000000 : BitVec 64).extractLsb 59 56 = 2#4 ∧ (0x0200800000000000 : BitVec 64).getLsbD 47 = true) ∧
      3 ≤ ((0x0300000000000000 : BitVec 64).extractLsb 59 56).toNat ∧
      3 ≤ ((0x0F00000000000000 : BitVec 64).extractLsb 59 56).toNat := by decide
theorem test_witness_fix_up :
    ((transferCard 15104 1024).capacity.toNat = 15104 * 1024 ∧ (transferCard 15104 1024).blockSize = 1024#32) ∧
      (transferCard 15104 2048).capacity.toNat = 15104 * 2048 ∧ (transferCard 15104 2048).blockSize = 2048#32 := by decide

/-! ### The whole machine -/

theorem test_witness_every_step :
    Inv (State.reset.withFetchWord 4 1) ∧ ∃ t, step (State.reset.withFetchWord 4 1) = .next t :=
  ⟨{ card := ⟨.inl rfl, rfl, (by intro h; cases h), (by intro h; cases h), .inl rfl, (by intro h; cases h), rfl⟩
     mem := rfl, payload := fun h => absurd rfl h, idle := fun _ => ⟨rfl, rfl⟩, allocated := fun h => absurd rfl h
     nesting := ⟨.cmd0, .goIdle, rfl, trivial⟩, bounds := trivial
     frames := fun _ f hf => by cases hf
     framed := fun _ _ h => by cases h }, next_of_isNext (by decide +kernel)⟩
/-- The same for a state in the middle of a transfer. -/
theorem test_witness_every_step_in_progress :
    Inv (standing (.statusPoll readCursor) [] (readyCard [.error .timeout])) ∧
      ∃ t, step (standing (.statusPoll readCursor) [] (readyCard [.error .timeout])) = .next t :=
  ⟨{ card :=
       ⟨.inr (.inr (.inr (.inr (.inr (.inl rfl))))), by decide, (by intro h; cases h), (by intro h; cases h), .inr rfl,
         (by intro h; cases h), rfl⟩
     mem := rfl, payload := fun h => absurd rfl h, idle := (fun h => by cases h), allocated := fun _ => rfl
     nesting := ⟨.rwBlocks none 0 1 .read, .rwBlocks, rfl, rfl, trivial, by decide⟩
     bounds := ⟨⟨⟨by decide, by decide, by decide⟩, by decide, .inl rfl⟩, fun f hf => by cases hf⟩
     frames := fun _ f hf => by cases hf
     framed := fun _ _ h => by cases h }, next_of_isNext (by decide +kernel)⟩
theorem test_witness_step :
    ((State.reset.withFetchWord 4 1).control = .idle ∧
        (State.reset.withFetchWord 4 1).request = some ⟨.op 1, true, none⟩ ∧ decode (.op 1) = .ok .allocateDevice) ∧
      (IsOperation .detect ∧ decode (.op 9) = .ok (.reservedOp 9)) ∧
      ((requested ⟨.frame 0x42000000004D#48, false, none⟩ State.reset).control = .idle ∧
        decode (.frame 0x42000000004D#48) = .ok .cmd2 ∧ ¬ IsOperation .cmd2 ∧ ∀ op, Instr.cmd2 ≠ .reservedOp op) ∧
      decode (.frame 0#48) = .error .badStartBits ∧ (State.reset.control = .idle ∧ State.reset.request = none) ∧
      ((standing (.eraseChunk 0 1) [] State.reset).control ≠ .idle ∧
        (standing (.eraseChunk 0 1) [] State.reset).request = none) ∧
      decodeTableWord 4 15 = some (.reservedOp 15) :=
  ⟨⟨rfl, rfl, rfl⟩, ⟨trivial, rfl⟩, ⟨rfl, rfl, id, fun _ => nofun⟩, rfl, ⟨rfl, rfl⟩, ⟨nofun, rfl⟩, rfl⟩
/-- A position that is a call and one that is none. -/
theorem test_witness_one_call :
    (At (standing (.insertion 0) [] State.reset) (.insertion 0) [] ∧
        (callAt (standing (.insertion 0) [] State.reset) (.insertion 0)).isSome) ∧
      (At (standing (.eraseChunk 0 1) [] State.reset) (.eraseChunk 0 1) [] ∧
        callAt (standing (.eraseChunk 0 1) [] State.reset) (.eraseChunk 0 1) = none) ∧
      (∃ t, exec .cmd2 (smallState standByCard [] []) = .next t) ∧
      (1#1 : BitVec 1) = (if 1 < 2 ∧ { defaultHost with autoCmd12 := true }.autoCmd12 = true then 1#1 else 0#1) ∧
      (0#1 : BitVec 1) = (if 1 < 1 ∧ { defaultHost with autoCmd12 := true }.autoCmd12 = true then 1#1 else 0#1) :=
  ⟨⟨⟨rfl, rfl⟩, rfl⟩, ⟨⟨rfl, rfl⟩, rfl⟩, next_of_isNext (by decide +kernel), by decide, by decide⟩
theorem test_witness_returns :
    At (standing (.returned .well) [] State.reset) (.returned .well) [] ∧
      At (standing (.ended true none) [] State.reset) (.ended true none) [] ∧
      At (standing (.ended false none) [.initialDetect] State.reset) (.ended false none) [.initialDetect] ∧
      (At (standing (.ended true none) [.initialDetect] (smallState (Card.initial true) [] [])) (.ended true none)
          [.initialDetect] ∧ (Card.initial true).rca = 0#16) ∧
      (At (standing (.ended true none) [.initialDetect] (smallState standByCard [] [])) (.ended true none)
          [.initialDetect] ∧ standByCard.rca ≠ 0#16 ∧ standByCard.mode ≠ ModeName.inactive.bits) ∧
      At (standing (.ended true none) [.initialNormal] State.reset) (.ended true none) [.initialNormal] ∧
      At (standing (.ended true none) [.freeDevice] State.reset) (.ended true none) [.freeDevice] :=
  ⟨⟨rfl, rfl⟩, ⟨rfl, rfl⟩, ⟨rfl, rfl⟩, ⟨⟨rfl, rfl⟩, rfl⟩, ⟨⟨rfl, rfl⟩, by decide⟩, ⟨rfl, rfl⟩, ⟨rfl, rfl⟩⟩
theorem test_witness_step_configuration : step State.reset = .next State.reset := rfl
theorem test_witness_overlap :
    ((standing (.eraseChunk 0 1) [] (requested ⟨.op 1, true, none⟩ State.reset)).control ≠ .idle ∧
        (standing (.eraseChunk 0 1) [] (requested ⟨.op 1, true, none⟩ State.reset)).request = some ⟨.op 1, true, none⟩) ∧
      ∀ op, Instr.detect ≠ .reservedOp op := ⟨⟨nofun, rfl⟩, fun _ => nofun⟩
theorem test_witness_reserved :
    ((0 : BitVec 136).extractLsb 3 0 = 0#4 ∧ (requested ⟨.op 0, true, none⟩ State.reset).control = .idle) ∧
      (9 ≤ (9#4).toNat ∧ (9 : BitVec 136).extractLsb 3 0 = 9#4) ∧ (9 ≤ (15#4).toNat ∧ (15 : BitVec 136).extractLsb 3 0 = 15#4) ∧
      (State.reset.control = .idle ∧ State.reset.card.allocated = false ∧ Instr.detect ≠ .allocateDevice ∧
        ∀ op, Instr.detect ≠ .reservedOp op) ∧
      ((requested ⟨.frame 0x400000000095#48, false, none⟩ State.reset).card.allocated = false ∧
        decode (.frame 0x400000000095#48) = .ok .cmd0 ∧ ¬ IsOperation .cmd0 ∧ ∀ op, Instr.cmd0 ≠ .reservedOp op) :=
  ⟨⟨by decide, rfl⟩, by decide, by decide, ⟨rfl, rfl, nofun, fun _ => nofun⟩, rfl, rfl, id, fun _ => nofun⟩
theorem test_witness_mode :
    (At (standing (.returned .well) [.goIdle] State.reset) (.returned .well) [.goIdle] ∧
        modeWrittenAt (.running (.returned .well) [.goIdle]) = some .idle ∧
        ∃ t, step (standing (.returned .well) [.goIdle] State.reset) = .next t) ∧
      (At (standing .drain [] State.reset) .drain [] ∧ modeWrittenAt (.running .drain []) = none ∧
        ∃ t, step (standing .drain [] State.reset) = .next t) ∧
      (Instr.cmd0 ≠ .allocateDevice ∧ (smallState standByCard [.well] [0]).request = none ∧
        RunOf .cmd0 (smallState standByCard [.well] [0]) (later 9 (begun .cmd0 (smallState standByCard [.well] [0])))) :=
  ⟨⟨⟨rfl, rfl⟩, rfl, _, step_at ⟨rfl, rfl⟩⟩, ⟨⟨rfl, rfl⟩, rfl, _, step_at ⟨rfl, rfl⟩⟩, nofun, rfl,
    run_later 9 (by decide +kernel)⟩
theorem test_witness_card_registers :
    (At (standing (.insertion 0) [] State.reset) (.insertion 0) [] ∧
        ∃ t, step (standing (.insertion 0) [] State.reset) = .next t) ∧
      (CardRegister.csd ∉ registersWrittenAt (.running (.insertion 0) [])) ∧
      (Instr.cmd3 ≠ .allocateDevice ∧ CardRegister.csd ∉ registersWrittenBy .cmd3 ∧
        RunOf .cmd3 (smallState standByCard [.well] [0x12340500])
          (later 5 (begun .cmd3 (smallState standByCard [.well] [0x12340500])))) :=
  ⟨⟨⟨rfl, rfl⟩, _, step_at ⟨rfl, rfl⟩⟩, by decide, nofun, by decide, run_later 5 (by decide +kernel)⟩
theorem test_witness_operation_codes :
    IsOperation .freeDevice ∧
      RunOf .freeDevice (smallState standByCard [.well, .well] [0])
        (later 12 (begun .freeDevice (smallState standByCard [.well, .well] [0]))) ∧
      Ended (later 12 (begun .freeDevice (smallState standByCard [.well, .well] [0]))) true (some .well) :=
  ⟨trivial, run_later 12 (by decide +kernel), by unfold Ended; decide +kernel⟩
theorem test_witness_describe :
    standByCard.allocated = true ∧ describe standByCard none .cmd13 = some ⟨13#6, 0x12340000#32, .r1, none⟩ ∧
      describe standByCard none (.cmd6 .check 1 0) = some ⟨6#6, 0x00FFFFF0#32, .r1, some ⟨1, 64, .read⟩⟩ ∧
      describe standByCard none (.cmd6 .check 6 15) = some ⟨6#6, 0x00FFFFFF#32, .r1, some ⟨1, 64, .read⟩⟩ := by
  decide
/-- ACMD6 on a card whose exchanges succeed. -/
def widthState : State := smallState standByCard [.well, .well] [0x920, 0x900]

theorem test_witness_execute_describe :
    Ready widthState ∧ widthState.host.framing = .coreCRC7 ∧
      describe widthState.card widthState.callerDesc (.acmd6 4) = some ⟨6#6, 2#32, .r1, none⟩ ∧
      RunOf (.acmd6 4) widthState (later 12 (begun (.acmd6 4) widthState)) ∧
      HostEvent.sendCommand { newCmd 6#6 2#32 .r1 with index := 0x46, crc := 0xCB } .well ∈
        (later 12 (begun (.acmd6 4) widthState)).trace :=
  ⟨⟨rfl, rfl, rfl⟩, rfl, by decide, run_later 12 (by decide +kernel), by decide +kernel⟩

/-! ### Commands -/

theorem test_witness_cmd0 :
    Ready (smallState standByCard [.well] [0]) ∧ nextSend (smallState standByCard [.well] [0]).takeResponse = .well ∧
      nextSend (smallState standByCard [.error .timeout] [0]).takeResponse = .error .timeout ∧
      RunOf .cmd0 (smallState standByCard [.well] [0]) (later 2 (begun .cmd0 (smallState standByCard [.well] [0]))) :=
  ⟨⟨rfl, rfl, rfl⟩, rfl, rfl, run_later 2 (by decide +kernel)⟩
/-- For CMD2, CMD10, CMD13, CMD12, CMD15, CMD55, CMD9 and the commands with an R1: a ready block, success and error. -/
theorem test_witness_exchange :
    Ready (smallState standByCard [.well] [0x900]) ∧ nextSend (smallState standByCard [.well] [0x900]) = .well ∧
      nextSend (smallState standByCard [.error .crcErr] []) = .error .crcErr := ⟨⟨rfl, rfl, rfl⟩, rfl, rfl⟩
theorem test_witness_cmd3 :
    (Ready (smallState standByCard [.well] [0xFFFF1FFF]) ∧ nextSend (smallState standByCard [.well] [0xFFFF1FFF]) = .well ∧
        (nextResponse (smallState standByCard [.well] [0xFFFF1FFF])).w0.extractLsb 15 13 = 0#3) ∧
      (nextSend (smallState standByCard [.well] [0x00002000]) = .well ∧
        (nextResponse (smallState standByCard [.well] [0x00002000])).w0.extractLsb 15 13 ≠ 0#3) ∧
      (nextResponse (smallState standByCard [.well] [0x00008000])).w0.extractLsb 15 13 ≠ 0#3 :=
  ⟨⟨⟨rfl, rfl, rfl⟩, by decide⟩, by decide⟩
theorem test_witness_cmd8_attempt :
    (At (standing (.ifCondAttempt 11 .checkErr) [] (smallState standByCard [] [])) (.ifCondAttempt 11 .checkErr) [] ∧
        defaultParams.cmd8MaxAttempts < 11) ∧
      10 ≤ defaultParams.cmd8MaxAttempts ∧ ifCondResult (smallState standByCard [.well] [0xAA]) = .well ∧
      ifCondResult (smallState standByCard [.well] [0x1AB]) ≠ .well := ⟨⟨⟨rfl, rfl⟩, by decide⟩, by decide⟩
theorem test_witness_cmd8 :
    Ready (limited { defaultParams with cmd8MaxAttempts := 0 } (smallState standByCard [] [])) ∧
      1 ≤ defaultParams.cmd8MaxAttempts ∧
      (limited { defaultParams with cmd8MaxAttempts := 1 } (smallState standByCard [] [])).params.cmd8MaxAttempts = 1 ∧
      (Ready (smallState standByCard (List.replicate 10 (.error .timeout)) []) ∧
        (smallState standByCard (List.replicate 10 (.error .timeout)) []).env.sendCommands =
          List.replicate (smallState standByCard [] []).params.cmd8MaxAttempts (.error .timeout) ++ []) :=
  ⟨⟨rfl, rfl, rfl⟩, by decide, rfl, ⟨rfl, rfl, rfl⟩, rfl⟩
theorem test_witness_acmd41 :
    appPrefixResult (smallState standByCard [.well] [0x100]) ≠ .well ∧
      (appPrefixResult (smallState standByCard [.well, .error .timeout] [0x120]) = .well ∧
        nextSend (afterExchange true (smallState standByCard [.well, .error .timeout] [0x120])) = .error .timeout) ∧
      (appPrefixResult (smallState standByCard [.well, .well] [0x120, 0x7FFFFFFF]) = .well ∧
        nextSend (afterExchange true (smallState standByCard [.well, .well] [0x120, 0x7FFFFFFF])) = .well ∧
        (nextResponse (afterExchange true
          (smallState standByCard [.well, .well] [0x120, 0x7FFFFFFF]))).w0.getLsbD 31 = false) ∧
      (nextResponse (afterExchange true
        (smallState standByCard [.well, .well] [0x120, 0x80000000]))).w0.getLsbD 31 = true := by decide
theorem test_witness_cmd11 :
    Ready (voltageState [.well] [0x900] [.well]) ∧
      ¬ (defaultHost.supports1V8 = true ∧ standByCard.ocr.getLsbD 24 = true ∧ standByCard.mode = ModeName.ready.bits) ∧
      ((voltageState [.well] [0x900] [.well]).host.supports1V8 = true ∧
        (voltageState [.well] [0x900] [.well]).card.ocr.getLsbD 24 = true ∧
        (voltageState [.well] [0x900] [.well]).card.mode = ModeName.ready.bits) ∧
      r1Result (voltageState [.well] [0x80000] [.well]) ≠ .well ∧
      (r1Result (voltageState [.well] [0x900] [.error .timeout]) = .well ∧
        (afterExchange true (voltageState [.well] [0x900] [.error .timeout])).voltageAnswer = .error .timeout) ∧
      (afterExchange true (voltageState [.well] [0x900] [.well])).voltageAnswer = .well := ⟨⟨rfl, rfl, rfl⟩, by decide⟩

/-- A block whose next response is a register with this most significant word. -/
def registerState (w3 : Word) : State :=
  { State.reset with
    card := standByCard
    env := { Environment.unscripted with sendCommands := [.well], responses := [⟨0, 0, 0, w3⟩] } }

theorem test_witness_cmd9 :
    Ready (registerState 0) ∧ nextSend (registerState 0) = .well ∧
      (nextResponse (registerState 0x3FFFFFFF)).w3.extractLsb 31 30 = 0#2 ∧
      (nextResponse (registerState 0x40000000)).w3.extractLsb 31 30 = 1#2 ∧
      2 ≤ ((nextResponse (registerState 0x80000000)).w3.extractLsb 31 30).toNat ∧
      2 ≤ ((nextResponse (registerState 0xFFFFFFFF)).w3.extractLsb 31 30).toNat := ⟨⟨rfl, rfl, rfl⟩, by decide⟩

/-- A block whose acquisitions fail. -/
def poorState : State := { smallState standByCard [] [] with env := { Environment.unscripted with acquisitions := [false] } }

/-- A block about to acquire, whose data phase answers so. -/
def scrState (sends : List HostResult) (responses : List Word) (a : HostResult) : State :=
  withData (smallState standByCard sends responses) a [2, 0x35, 0x84, 0x43, 0, 0, 0, 0]

theorem test_witness_acmd51 :
    (Ready poorState ∧ poorState.acquireAnswer = false) ∧
      (Ready (scrState [.well] [0x80120] .well) ∧ (scrState [.well] [0x80120] .well).acquireAnswer = true) ∧
      appPrefixResult (scrState [.well] [0x80120] .well).takeAcquisition ≠ .well ∧
      (appPrefixResult (scrState [.well, .well] [0x120, 0x80000900] .well).takeAcquisition = .well ∧
        r1Result (afterExchange true (scrState [.well, .well] [0x120, 0x80000900] .well).takeAcquisition) ≠ .well) ∧
      (r1Result (afterExchange true (scrState [.well, .well] [0x120, 0x900] .well).takeAcquisition) = .well ∧
        (afterExchange true (afterExchange true
          (scrState [.well, .well] [0x120, 0x900] .well).takeAcquisition)).recvDataAnswer = .well) ∧
      (afterExchange true (afterExchange true
        (scrState [.well, .well] [0x120, 0x900] (.error .recvDataFail)).takeAcquisition)).recvDataAnswer
        = .error .recvDataFail := ⟨⟨⟨rfl, rfl, rfl⟩, rfl⟩, ⟨⟨rfl, rfl, rfl⟩, rfl⟩, by decide⟩
theorem test_witness_selection :
    (Ready (smallState standByCard [.well] [0x900]) ∧ standByCard.rca ≠ 0#16) ∧
      (Ready (smallState (Card.initial true) [.well] []) ∧ (Card.initial true).rca = 0#16) ∧
      nextSend (smallState standByCard [.well] [0x900]) = .well ∧
      nextSend (smallState standByCard [.error .crcErr] []) = .error .crcErr :=
  ⟨⟨⟨rfl, rfl, rfl⟩, by decide⟩, ⟨⟨rfl, rfl, rfl⟩, rfl⟩, rfl, rfl⟩
theorem test_witness_acmd6 :
    Ready (smallState standByCard [.well] [0x120]) ∧ ((2 : Nat) ≠ 1 ∧ (2 : Nat) ≠ 4) ∧ ((5 : Nat) ≠ 1 ∧ (5 : Nat) ≠ 4) ∧
      appPrefixResult (smallState standByCard [.well] [0x100]) ≠ .well ∧
      appPrefixResult (smallState standByCard [.well] [0x120]) = .well := ⟨⟨rfl, rfl, rfl⟩, by decide⟩
theorem test_witness_cmd6 :
    (Ready (scrState [.well] [0x900] .well) ∧ (scrState [.well] [0x900] .well).acquireAnswer = true) ∧
      ((0 : Nat) < 1 ∧ (6 : Nat) < 7 ∧ (15 : Nat) < 16) ∧
      (((1 : Nat) ≤ 1 ∧ (1 : Nat) ≤ 6 ∧ (15 : Nat) ≤ 15) ∧ (6 : Nat) ≤ 6 ∧ (0 : Nat) ≤ 15) ∧
      (Ready poorState ∧ poorState.acquireAnswer = false) ∧
      r1Result (scrState [.well] [8] .well).takeAcquisition ≠ .well ∧
      (r1Result (scrState [.well] [0x900] .well).takeAcquisition = .well ∧
        (afterExchange true (scrState [.well] [0x900] .well).takeAcquisition).recvDataAnswer = .well) ∧
      (afterExchange true (scrState [.well] [0x900] (.error .timeout)).takeAcquisition).recvDataAnswer = .error .timeout :=
  ⟨⟨⟨rfl, rfl, rfl⟩, rfl⟩, by decide, by decide, ⟨⟨rfl, rfl, rfl⟩, rfl⟩, by decide⟩

/-- A block whose CMD16, CMD6 and data phases succeed, the payloads `p` and `q`. -/
def phaseState (p q : List Byte) : State :=
  let s := smallState standByCard [.well, .well, .well, .well] [0x900, 0x900, 0x900, 0x900]
  { s with env := { s.env with recvDatas := [(.well, p), (.well, q)] } }

/-- The payload and the environment that the premises of `NegotiateAcceptsInBothPhases` name. -/
def phasePayload (s : State) : List Byte := (afterExchange true (afterExchange true s).takeAcquisition).recvDataBytes 64

/-- The environment after one phase. -/
def phaseNext (s : State) : State := (afterExchange true (afterExchange true s).takeAcquisition).takeRecvData 64

theorem test_witness_negotiate :
    ((phaseState switchPayload0 switchPayload0).request = none ∧ (phaseState switchPayload0 switchPayload0).payload = none) ∧
      (SwitchPhase (phaseState switchPayload0 switchPayload0) (phasePayload (phaseState switchPayload0 switchPayload0))
        (phaseNext (phaseState switchPayload0 switchPayload0)) ∧
      ((fnSupportOf (phasePayload (phaseState switchPayload0 switchPayload0)) 1).getLsbD 1 = true ∧
        (fnCurrentOf (phasePayload (phaseState switchPayload0 switchPayload0)) 1).toNat = 1) ∧
      SwitchPhase (phaseNext (phaseState switchPayload0 switchPayload0))
        (phasePayload (phaseNext (phaseState switchPayload0 switchPayload0)))
        (phaseNext (phaseNext (phaseState switchPayload0 switchPayload0)))) ∧
      ¬ ((fnSupportOf (phasePayload (phaseState switchPayload3 switchPayload3)) 6).getLsbD 15 = true ∧
        (fnCurrentOf (phasePayload (phaseState switchPayload3 switchPayload3)) 6).toNat = 15) :=
  ⟨⟨rfl, rfl⟩, ⟨⟨by decide, rfl, by decide, rfl, rfl, rfl⟩, by decide, ⟨by decide, rfl, by decide, rfl, rfl, rfl⟩⟩, by decide⟩

/-- A block about to negotiate, with these answers. -/
def phaseFailState (sends : List HostResult) (responses : List Word) (acquired : Bool) (a : HostResult) : State :=
  let s := withData (smallState standByCard sends responses) a []
  { s with env := { s.env with acquisitions := [acquired] } }

/-- The four failures of a Check phase, and a Switch phase that fails after an accepted Check payload. -/
theorem test_witness_negotiate_fails :
    SwitchPhaseFails (phaseFailState [.well] [0x80000900] true .well) .anyError false ∧
      SwitchPhaseFails (phaseFailState [.well] [0x900] false .well) .memErr false ∧
      SwitchPhaseFails (phaseFailState [.well, .error .crcErr] [0x900] true .well) .crcErr true ∧
      SwitchPhaseFails (phaseFailState [.well, .well] [0x900, 0x900] true (.error .timeout)) .timeout true ∧
      SwitchPhaseFails
        (phaseNext { phaseState switchPayload0 switchPayload0 with
          env := { (phaseState switchPayload0 switchPayload0).env with sendCommands := [.well, .well, .error .timeout] } })
        .timeout false ∧
      ((phaseFailState [] [] true .well).request = none ∧ (phaseFailState [] [] true .well).payload = none) :=
  ⟨.length (by decide), .acquired (by decide) rfl, .command (by decide) rfl (by decide),
    .data .timeout (by decide) rfl (by decide) rfl, .length (by decide), rfl, rfl⟩

/-! ### The lifecycle -/

/-- A host without the hook that its framing needs. -/
def incompleteHost : HostPort :=
  { defaultHost with framing := .hostOverride, functions := { defaultHost.functions with addFraming := false } }

theorem test_witness_allocate :
    ((smallState standByCard [] []).control = .idle ∧ (smallState standByCard [] []).card.allocated = true) ∧
      (State.control { poorState with card := Card.initial false } = .idle ∧
        (State.card { poorState with card := Card.initial false }).allocated = false ∧
        State.acquireAnswer { poorState with card := Card.initial false } = false) ∧
      (((smallState (Card.initial false) [] []).card.allocated = false ∧
          (smallState (Card.initial false) [] []).acquireAnswer = true) ∧
        InterfaceSupplied (smallState (Card.initial false) [] []).host ∧ ¬ InterfaceSupplied incompleteHost ∧
        ¬ InterfaceSupplied { defaultHost with functions := { defaultHost.functions with switchVoltage := false } }) := by
  simp only [interfaceSupplied_iff]
  decide
theorem test_witness_teardown :
    (Ready (smallState standByCard [] []) ∧ standByCard.mode ≠ ModeName.inactive.bits) ∧
      Ready (smallState { standByCard with mode := ModeName.inactive.bits } [] []) ∧
      RunOf .inactivateDevice (smallState standByCard [.well, .well] [0])
        (later 1 (begun .inactivateDevice (smallState standByCard [.well, .well] [0]))) :=
  ⟨⟨⟨rfl, rfl, rfl⟩, by decide⟩, ⟨rfl, rfl, rfl⟩, run_later 1 (by decide +kernel)⟩
theorem test_witness_insertion :
    Ready (slotState false true [] []) ∧
      (At (standing (.insertion 0) [] (slotState true true [] [])) (.insertion 0) [] ∧
        (slotState true true [] []).insertedAnswer = true) ∧
      (At (limited { defaultParams with insertPollLimit := some 2 } (standing (.insertion 1) [] (slotState false true [] [])))
          (.insertion 1) [] ∧ (slotState false true [] []).insertedAnswer = false ∧ limitReached (some 2) (1 + 1) = true) ∧
      limitReached (some 1) (0 + 1) = true ∧ limitReached (some 3) (1 + 1) = false ∧
      limitReached defaultParams.insertPollLimit (0 + 1) = false :=
  ⟨⟨rfl, rfl, rfl⟩, ⟨⟨rfl, rfl⟩, rfl⟩, ⟨⟨rfl, rfl⟩, rfl, rfl⟩, rfl, rfl, rfl⟩
theorem test_witness_identification :
    (0x1AA#32).extractLsb 7 0 = 0xAA#8 ∧ r1Ok 0x120 = true ∧ (0x120#32).getLsbD 5 = true ∧
      (0xC0FF8000#32).getLsbD 31 = true ∧ defaultHost.supports1V8 = false ∧ (0xC0FF8000#32).getLsbD 24 = false ∧
      (0x12340500#32).extractLsb 15 13 = 0#3 ∧ (0x12340500#32).extractLsb 31 16 ≠ 0#16 := by decide
/-- A block with this list of answers of `send_command`, a card in the slot that activates, and these responses. -/
def identifyState (sends : List HostResult) (responses : List Word) : State := slotState true true sends responses

theorem test_witness_detect :
    Ready (identifyState (List.replicate 6 .well) [0, 0x1AA, 0x120, 0xC0FF8000, 0, 0x12340500]) ∧
      1 ≤ defaultParams.cmd8MaxAttempts ∧ 1 ≤ defaultParams.acmd41LoopBudget ∧
      (identifyState (List.replicate 6 .well) [0, 0x1AA, 0x120, 0xC0FF8000, 0, 0x12340500]).env =
        { Environment.unscripted with
          inserted := true :: []
          activated := true :: []
          sendCommands := List.replicate 6 .well ++ []
          responses := shortResponse 0 :: shortResponse 0x1AA :: shortResponse 0x120 :: shortResponse 0xC0FF8000 ::
            shortResponse 0 :: shortResponse 0x12340500 :: []
          acquisitions := [true, true, true, true, true, true, true] } := ⟨⟨rfl, rfl, rfl⟩, by decide, by decide, rfl⟩

/-- The same with a host that supports 1.8 V and answers the switch so. -/
def lowVoltageState (sends : List HostResult) (responses : List Word) (a : HostResult) : State :=
  { identifyState sends responses with
    host := { defaultHost with supports1V8 := true }
    env := { (identifyState sends responses).env with voltages := [a] } }

theorem test_witness_detect_voltage :
    (Ready (lowVoltageState (List.replicate 5 .well) [0, 0x1AA, 0x120, 0xC1FF8000, 0x900] (.error .timeout)) ∧
        (lowVoltageState (List.replicate 5 .well) [0, 0x1AA, 0x120, 0xC1FF8000, 0x900] (.error .timeout)).env =
          { Environment.unscripted with
            inserted := true :: []
            activated := true :: []
            sendCommands := List.replicate 5 .well ++ []
            responses := shortResponse 0 :: shortResponse 0x1AA :: shortResponse 0x120 :: shortResponse 0xC1FF8000 ::
              shortResponse 0x900 :: []
            voltages := .error .timeout :: []
            acquisitions := [true, true, true, true, true, true, true] }) ∧
      (Ready (lowVoltageState (List.replicate 7 .well) [0, 0x1AA, 0x120, 0xC1FF8000, 0x900, 0, 0x12340500] .well) ∧
        (lowVoltageState (List.replicate 7 .well) [0, 0x1AA, 0x120, 0xC1FF8000, 0x900, 0, 0x12340500] .well).env =
          { Environment.unscripted with
            inserted := true :: []
            activated := true :: []
            sendCommands := List.replicate 7 .well ++ []
            responses := shortResponse 0 :: shortResponse 0x1AA :: shortResponse 0x120 :: shortResponse 0xC1FF8000 ::
              shortResponse 0x900 :: shortResponse 0 :: shortResponse 0x12340500 :: []
            voltages := .well :: []
            acquisitions := [true, true, true, true, true, true, true] }) ∧
      (0xC1FF8000#32).getLsbD 31 = true ∧ (0xC1FF8000#32).getLsbD 24 = true ∧ r1Ok 0x900 = true :=
  ⟨⟨⟨rfl, rfl, rfl⟩, rfl⟩, ⟨⟨rfl, rfl, rfl⟩, rfl⟩, by decide⟩
theorem test_witness_detect_fails :
    (Ready (slotState true false [] []) ∧ (slotState true false [] []).env.inserted = true :: [] ∧
        (slotState true false [] []).env.activated = false :: []) ∧
      (Ready (identifyState [.error .timeout] [0]) ∧
        (identifyState [.error .timeout] [0]).env.sendCommands = .error .timeout :: []) ∧
      (Frame.detectVoltage ∈ [Frame.detectIdle, .detectVoltage, .detectCid, .detectRca] ∧ Result.timeout ≠ .well ∧
        At (standing (.returned .timeout) [.detectVoltage] State.reset) (.returned .timeout) [.detectVoltage]) ∧
      At (standing (.returned .timeout) [.detectIfCond] State.reset) (.returned .timeout) [.detectIfCond] :=
  ⟨⟨⟨rfl, rfl, rfl⟩, rfl, rfl⟩, ⟨⟨rfl, rfl, rfl⟩, rfl⟩, ⟨by decide, nofun, rfl, rfl⟩, rfl, rfl⟩

/-- A card that answers none of CMD8's ten attempts and every other exchange. -/
def oldCardState : State :=
  identifyState (.well :: (List.replicate 10 (.error .timeout) ++ List.replicate 4 .well))
    [0, 0x120, 0xC0FF8000, 0, 0x12340500]

theorem test_witness_detect_without_cmd8 :
    Ready oldCardState ∧
      oldCardState.env.sendCommands = .well :: (List.replicate oldCardState.params.cmd8MaxAttempts (.error .timeout) ++
        (List.replicate 4 .well ++ [])) ∧
      oldCardState.env.responses = shortResponse 0 :: shortResponse 0x120 :: shortResponse 0xC0FF8000 :: shortResponse 0 ::
        shortResponse 0x12340500 :: [] := ⟨⟨rfl, rfl, rfl⟩, rfl, rfl⟩
theorem test_witness_acmd41_loop :
    (At (standing (.opCondIteration true 1001) [] (smallState standByCard [] [])) (.opCondIteration true 1001) [] ∧
        defaultParams.acmd41LoopBudget < 1001) ∧
      At (standing (.opCondIteration true 1000) [] (smallState standByCard [.well, .well] [0x120, 0]))
        (.opCondIteration true 1000) [] ∧ 1000 ≤ defaultParams.acmd41LoopBudget ∧
      appPrefixResult (standing (.opCondIteration true 1) [] (smallState standByCard [.well] [0x100])) ≠ .well ∧
      (appPrefixResult (smallState standByCard [.well, .well] [0x120, 0x7FFFFFFF]) = .well ∧
        nextSend (afterExchange true (smallState standByCard [.well, .well] [0x120, 0x7FFFFFFF])) = .well ∧
        (nextResponse (afterExchange true
          (smallState standByCard [.well, .well] [0x120, 0x7FFFFFFF]))).w0.getLsbD 31 = false) ∧
      nextSend (afterExchange true (smallState standByCard [.well, .error .timeout] [0x120])) = .error .timeout :=
  ⟨⟨⟨rfl, rfl⟩, by decide⟩, ⟨rfl, rfl⟩, by decide⟩
/-- Iteration 2 of the loop with bit 31 set: with the 1.8 V switch, and without it (the host, the word). -/
theorem test_witness_acmd41_ready :
    At (standing (.opCondIteration true 2) [] (lowVoltageState [.well, .well] [0x120, 0xC1FF8000] .well))
        (.opCondIteration true 2) [] ∧
      (appPrefixResult (lowVoltageState [.well, .well] [0x120, 0xC1FF8000] .well) = .well ∧
        nextSend (afterExchange true (lowVoltageState [.well, .well] [0x120, 0xC1FF8000] .well)) = .well ∧
        (nextResponse (afterExchange true (lowVoltageState [.well, .well] [0x120, 0xC1FF8000] .well))).w0 = 0xC1FF8000) ∧
      ((0xC1FF8000#32).getLsbD 31 = true ∧ (0xC1FF8000#32).getLsbD 24 = true ∧
        (lowVoltageState [] [] .well).host.supports1V8 = true) ∧
      ((0xC0FF8000#32).getLsbD 31 = true ∧ (0xC0FF8000#32).getLsbD 24 = false) ∧
      (identifyState [] []).host.supports1V8 = false := ⟨⟨rfl, rfl⟩, by decide⟩

/-- The words of the V-CSD-2 register. -/
def csdWords : ResponseWords := ⟨0x0A4000B7, 0x10107F80, 0x5B590000, 0x400E0032⟩

/-- A card in StandBy whose exchanges succeed: `n` commands, the responses after the CSD, the SCR and these CMD6 payloads. -/
def toNormalState (n : Nat) (responses : List Word) (scr : List Byte) (payloads : List (List Byte)) : State :=
  { State.reset with
    card := standByCard
    env :=
      { Environment.unscripted with
        sendCommands := List.replicate n .well
        responses := csdWords :: responses.map shortResponse
        recvDatas := (.well, scr) :: payloads.map (fun p => (.well, p))
        acquisitions := List.replicate 7 true
        inserted := [true]
        activated := [true] } }

/-- `SW0` without high speed: the support bit of function 1 of group 1 is clear, and its current function is 0. -/
def slowPayload : List Byte :=
  [0x00, 0x64, 0x80, 0x01, 0x80, 0x01, 0x80, 0x01, 0x80, 0x01, 0x80, 0x01, 0x80, 0x01, 0x00, 0x00, 0x00] ++
    List.replicate 47 0

theorem test_witness_to_normal_version_one :
    (Ready (toNormalState 5 [0x900, 0x920, 0x900, 0x900] [0, 0x25, 0, 0, 0, 0, 0, 0] []) ∧ standByCard.rca ≠ 0#16 ∧
        standByCard.mode ≠ ModeName.inactive.bits) ∧
      (toNormalState 5 [0x900, 0x920, 0x900, 0x900] [0, 0x25, 0, 0, 0, 0, 0, 0] []).env.responses =
        csdWords :: shortResponse 0x900 :: shortResponse 0x920 :: shortResponse 0x900 :: shortResponse 0x900 :: [] ∧
      (toNormalState 5 [0x900, 0x920, 0x900, 0x900] [0, 0x25, 0, 0, 0, 0, 0, 0] []).env.sendCommands =
        List.replicate 5 .well ++ [] ∧
      (toNormalState 5 [0x900, 0x920, 0x900, 0x900] [0, 0x25, 0, 0, 0, 0, 0, 0] []).env.acquisitions =
        true :: List.replicate 6 true ∧
      csdFields (registerOfWords csdWords) = some (.v2 (csdV2 (registerOfWords csdWords))) ∧
      (r1Ok 0x900 = true ∧ r1Ok 0x920 = true ∧ (0x920#32).getLsbD 5 = true) ∧
      versionOf (assembleScr [0, 0x25, 0, 0, 0, 0, 0, 0]) = 0#2 :=
  ⟨⟨⟨rfl, rfl, rfl⟩, by decide, by decide⟩, rfl, rfl, rfl, rfl, by decide, by decide⟩

/-- A version-3 card that accepts every negotiation; after high speed the card gives other payloads. -/
def negotiatingState : State :=
  toNormalState 17 (0x900 :: 0x920 :: 0x900 :: List.replicate 13 0x900) [2, 0x35, 0x84, 0x43, 0, 0, 0, 0]
    [switchPayload0, switchPayload0, slowPayload, slowPayload, slowPayload, slowPayload]

theorem test_witness_to_normal_negotiates :
    Ready negotiatingState ∧
      negotiatingState.env.responses = csdWords :: shortResponse 0x900 :: shortResponse 0x920 :: shortResponse 0x900 ::
        ((List.replicate 13 0x900).map shortResponse ++ []) ∧
      negotiatingState.env.sendCommands = List.replicate 17 .well ++ [] ∧
      negotiatingState.env.acquisitions = List.replicate 7 true ++ [] ∧
      negotiatingState.env.recvDatas = (.well, [2, 0x35, 0x84, 0x43, 0, 0, 0, 0]) :: (.well, switchPayload0) ::
        (.well, switchPayload0) :: (.well, slowPayload) :: (.well, slowPayload) :: (.well, slowPayload) ::
        (.well, slowPayload) :: [] ∧
      (switchPayload0.length = 64 ∧ slowPayload.length = 64) ∧
      1 ≤ (versionOf (assembleScr [2, 0x35, 0x84, 0x43, 0, 0, 0, 0])).toNat ∧
      ((fnSupportOf switchPayload0 1).getLsbD 1 = true ∧ fnCurrentOf switchPayload0 1 = 1#4 ∧
        (fnSupportOf slowPayload 3).getLsbD 0 = true ∧ fnCurrentOf slowPayload 3 = 0#4 ∧
        (fnSupportOf slowPayload 4).getLsbD 0 = true ∧ fnCurrentOf slowPayload 4 = 0#4) :=
  ⟨⟨rfl, rfl, rfl⟩, rfl, rfl, rfl, rfl, by decide, by decide, by decide⟩

/-- The same card when its Check payload has no high speed. -/
def slowState : State :=
  toNormalState 15 (0x900 :: 0x920 :: 0x900 :: List.replicate 11 0x900) [2, 0x35, 0x84, 0x43, 0, 0, 0, 0]
    [slowPayload, slowPayload, slowPayload, slowPayload, slowPayload]

theorem test_witness_to_normal_slow :
    Ready slowState ∧
      slowState.env.responses = csdWords :: shortResponse 0x900 :: shortResponse 0x920 :: shortResponse 0x900 ::
        ((List.replicate 11 0x900).map shortResponse ++ []) ∧
      slowState.env.sendCommands = List.replicate 15 .well ++ [] ∧
      slowState.env.acquisitions = List.replicate 6 true ++ [true] ∧
      slowState.env.recvDatas = (.well, [2, 0x35, 0x84, 0x43, 0, 0, 0, 0]) :: (.well, slowPayload) :: (.well, slowPayload) ::
        (.well, slowPayload) :: (.well, slowPayload) :: (.well, slowPayload) :: [] ∧
      (fnSupportOf slowPayload 1).getLsbD 1 = false ∧ fnCurrentOf slowPayload 1 ≠ 1#4 :=
  ⟨⟨rfl, rfl, rfl⟩, rfl, rfl, rfl, rfl, by decide⟩
theorem test_witness_to_normal_refused_or_failing :
    (Ready (smallState (Card.initial true) [] []) ∧ (Card.initial true).rca = 0#16) ∧
      (At (standing (.returned .timeout) [.normalScr] (smallState standByCard [.well] [])) (.returned .timeout) [.normalScr] ∧
        Frame.normalScr ∈ [Frame.normalCsd, .normalSelect, .normalScr, .normalLength] ∧ Result.timeout ≠ .well) ∧
      (At (standing (.returned .timeout) [.normalPower] (smallState standByCard [.well] [])) (.returned .timeout)
          [.normalPower] ∧ Frame.normalPower ∈ [Frame.normalSpeed, .normalDrive, .normalPower] ∧
        Result.timeout ≠ .notSupported) ∧
      (At (standing (.returned .notSupported) [.normalSpeed] State.reset) (.returned .notSupported) [.normalSpeed] ∧
        At (standing (.returned .well) [.normalDrive] State.reset) (.returned .well) [.normalDrive] ∧
        At (standing (.returned .well) [.normalPower] State.reset) (.returned .well) [.normalPower]) ∧
      (Ready (smallState standByCard [.error .crcErr, .well] []) ∧ standByCard.rca ≠ 0#16 ∧
        standByCard.mode ≠ ModeName.inactive.bits ∧
        nextSend (smallState standByCard [.error .crcErr, .well] []) = .error .crcErr) :=
  ⟨⟨⟨rfl, rfl, rfl⟩, rfl⟩, ⟨⟨rfl, rfl⟩, by decide, nofun⟩, ⟨⟨rfl, rfl⟩, by decide, nofun⟩,
    ⟨⟨rfl, rfl⟩, ⟨rfl, rfl⟩, ⟨rfl, rfl⟩⟩, ⟨rfl, rfl, rfl⟩, by decide, by decide, rfl⟩

/-- An allocated card in PowerOn whose whole bring-up succeeds. -/
def bringUpState : State :=
  { State.reset with
    card := Card.initial true
    env :=
      { Environment.unscripted with
        inserted := [true]
        activated := [true]
        acquisitions := [true]
        sendCommands := List.replicate 11 .well
        responses := [0, 0x1AA, 0x120, 0xC0FF8000, 0, 0x12340500].map shortResponse ++
          csdWords :: [0x900, 0x920, 0x900, 0x900].map shortResponse
        recvDatas := [(.well, [0, 0x25, 0, 0, 0, 0, 0, 0])] } }

theorem test_witness_initial_device :
    Ready bringUpState ∧ bringUpState.env.inserted = true :: [] ∧ bringUpState.env.activated = true :: [] ∧
      bringUpState.env.acquisitions = true :: [] ∧ bringUpState.env.sendCommands = List.replicate 11 .well ++ [] ∧
      bringUpState.env.responses =
        shortResponse 0 :: shortResponse 0x1AA :: shortResponse 0x120 :: shortResponse 0xC0FF8000 :: shortResponse 0 ::
          shortResponse 0x12340500 :: csdWords :: shortResponse 0x900 :: shortResponse 0x920 :: shortResponse 0x900 ::
          shortResponse 0x900 :: [] ∧
      bringUpState.env.recvDatas = (.well, [0, 0x25, 0, 0, 0, 0, 0, 0]) :: [] :=
  ⟨⟨rfl, rfl, rfl⟩, rfl, rfl, rfl, rfl, rfl, rfl⟩

/-! ### Block transfers -/

theorem test_witness_arguments :
    (Ready (readyCard []) ∧ (readyCard []).card.blockCount.toNat < (99#32).toNat + (2#32).toNat) ∧
      (Ready (smallState { transferCard 8388609 512 with ocr := 0x80FF8000 } [] []) ∧
        (smallState { transferCard 8388609 512 with ocr := 0x80FF8000 } [] []).card.ocr.getLsbD 30 = false ∧
        2 ^ 32 ≤ ((8388608#32).toNat + (1#32).toNat - 1) * (transferCard 8388609 512).blockSize.toNat) ∧
      (1 ≤ (2#32).toNat ∧ (98#32).toNat + (2#32).toNat ≤ (transferCard 100 2).blockCount.toNat) ∧
      ((8388607#32).toNat + (1#32).toNat - 1) * (transferCard 8388608 512).blockSize.toNat < 2 ^ 32 :=
  ⟨⟨⟨rfl, rfl, rfl⟩, by decide⟩, ⟨⟨rfl, rfl, rfl⟩, by decide⟩, by decide⟩

/-- A block at a status poll of the transfer above. -/
def pollState (s : State) : State := standing (.statusPoll readCursor) [] s

theorem test_witness_status_poll :
    (At (pollState (readyCard [.error .timeout])) (.statusPoll readCursor) [] ∧
        statusResult (pollState (readyCard [.error .timeout])) ≠ .well ∧
        statusResult (pollState (readyCard [.error .timeout])) ≠ .notReady) ∧
      (At (pollState (smallState (transferCard 100 2) [.well] [0x800])) (.statusPoll readCursor) [] ∧
        statusResult (pollState (smallState (transferCard 100 2) [.well] [0x800])) = .notReady ∧
        limitReached (smallState (transferCard 100 2) [.well] [0x800]).params.statusPollLimit (0 + 1) = false) ∧
      (statusResult (limited { defaultParams with statusPollLimit := some 1 }
            (pollState (smallState (transferCard 100 2) [.well] [0xF00]))) = .notReady ∧
        limitReached (some 1) (0 + 1) = true) :=
  ⟨⟨⟨rfl, rfl⟩, by decide⟩, ⟨⟨rfl, rfl⟩, by decide⟩, by decide⟩
/-- The environment of a data phase: ready card, accepted command, the answer of the data phase. -/
def phaseAnswer (dir : Direction) (a : HostResult) : State :=
  { readyCard [.well, .well, .well] with
    env :=
      match dir with
      | .read => { (readyCard [.well, .well, .well]).env with recvDatas := [(a, [1, 2, 3, 4, 5, 6])] }
      | .write => { (readyCard [.well, .well, .well]).env with sendDatas := [a] } }

/-- Up to the whole card in one transaction, the last block among them: one block and two. -/
theorem test_witness_read :
    (Ready (phaseAnswer .read .well) ∧ (phaseAnswer .read .well).mem.wf = true ∧ 1 ≤ (1#32).toNat ∧
        (2#32).toNat ≤ defaultHost.maxBlockCount ∧ (98#32).toNat + 2 ≤ (transferCard 100 2).blockCount.toNat) ∧
      (statusResult (phaseAnswer .read .well) = .well ∧ r1Result (afterExchange true (phaseAnswer .read .well)) = .well ∧
        (afterExchange true (afterExchange true (phaseAnswer .read .well))).recvDataAnswer = .well) ∧
      stopNeeded defaultHost 2 ∧ ¬ stopNeeded defaultHost 1 :=
  ⟨⟨⟨rfl, rfl, rfl⟩, by decide⟩, by decide, ⟨by decide, rfl⟩, fun h => absurd h.1 (by decide)⟩
theorem test_witness_write :
    Ready (phaseAnswer .write .well) ∧ statusResult (phaseAnswer .write .well) = .well ∧
      r1Result (afterExchange true (phaseAnswer .write .well)) = .well ∧
      (afterExchange true (afterExchange true (phaseAnswer .write .well))).sendDataAnswer = .well :=
  ⟨⟨rfl, rfl, rfl⟩, by decide⟩
theorem test_witness_address :
    checkRange (transferCard 100 2) 99 1 = .well ∧
      checkRange { transferCard 8388608 512 with ocr := 0x80FF8000 } 8388607 1 = .well ∧
      (transferCard 8388608 512).blockCount.toNat ≤ 2 ^ 32 := by decide
theorem test_witness_data_fail :
    At (pollState (phaseAnswer .read (.error .recvDataFail))) (.statusPoll readCursor) [] ∧
      3 = min readCursor.remaining (max 1 defaultHost.maxBlockCount) ∧ 3 * (transferCard 100 2).blockSize.toNat < 2 ^ 64 ∧
      (statusResult (pollState (phaseAnswer .read (.error .recvDataFail))) = .well ∧
        r1Result (afterExchange true (pollState (phaseAnswer .read (.error .recvDataFail)))) = .well ∧
        dataAnswer .read (afterExchange true (afterExchange true (pollState (phaseAnswer .read (.error .recvDataFail))))) =
          .error .recvDataFail) ∧
      dataAnswer .write (afterExchange true (afterExchange true (phaseAnswer .write (.error .timeout)))) = .error .timeout ∧
      (0 < defaultParams.dataRetry ∧ defaultParams.dataRetry ≤ 1) := ⟨⟨rfl, rfl⟩, by decide⟩
theorem test_witness_success :
    (At (pollState (withMax 2 (phaseAnswer .read .well))) (.statusPoll readCursor) [] ∧
        2 = min readCursor.remaining (max 1 (withMax 2 (phaseAnswer .read .well)).host.maxBlockCount) ∧ 2 < readCursor.remaining ∧
        2 * (transferCard 100 2).blockSize.toNat < 2 ^ 64 ∧ (withMax 2 (phaseAnswer .read .well)).mem.wf = true) ∧
      (statusResult (pollState (withMax 2 (phaseAnswer .read .well))) = .well ∧
        r1Result (afterExchange true (pollState (withMax 2 (phaseAnswer .read .well)))) = .well ∧
        dataAnswer .read (afterExchange true (afterExchange true (pollState (withMax 2 (phaseAnswer .read .well))))) = .well ∧
        stopResult (afterData .read (2 * 2)
          (afterExchange true (afterExchange true (pollState (withMax 2 (phaseAnswer .read .well)))))) = .well) ∧
      3 = min readCursor.remaining (max 1 (phaseAnswer .read .well).host.maxBlockCount) ∧ readCursor.remaining ≤ 3 :=
  ⟨⟨⟨rfl, rfl⟩, by decide⟩, by decide⟩
/-- The response of CMD12 with an error bit. -/
def stopFails : State :=
  { phaseAnswer .read .well with
    env :=
      { (phaseAnswer .read .well).env with responses := [0x900, 0x900, 0x80000900].map shortResponse } }

theorem test_witness_stop :
    (At (pollState (smallState (transferCard 100 2) [.well, .error .timeout] [0x900])) (.statusPoll readCursor) [] ∧
        3 = min readCursor.remaining (max 1 defaultHost.maxBlockCount) ∧
        statusResult (smallState (transferCard 100 2) [.well, .error .timeout] [0x900]) = .well ∧
        r1Result (afterExchange true (smallState (transferCard 100 2) [.well, .error .timeout] [0x900])) ≠ .well) ∧
      (At (pollState stopFails) (.statusPoll readCursor) [] ∧ statusResult (pollState stopFails) = .well ∧
        r1Result (afterExchange true (pollState stopFails)) = .well ∧
        dataAnswer .read (afterExchange true (afterExchange true (pollState stopFails))) = .well ∧
        stopNeeded stopFails.host 3 ∧ 3 * stopFails.card.blockSize.toNat < 2 ^ 64 ∧
        stopResult (afterData .read (3 * 2) (afterExchange true (afterExchange true (pollState stopFails)))) ≠ .well) :=
  ⟨⟨⟨rfl, rfl⟩, by decide⟩, ⟨rfl, rfl⟩, by decide, by decide, by decide, ⟨by decide, rfl⟩, by decide, by decide⟩
theorem test_witness_erase :
    (At (standing (.eraseChunk 10 5) [] (withMax 4 (readyCard [.well, .well, .well]))) (.eraseChunk 10 5) [] ∧
        4 = min 5 (max 1 (withMax 4 (readyCard [])).host.maxBlockCount) ∧ 4 < 5) ∧
      (Ready (readyCard [.well, .well, .well]) ∧ checkRange (transferCard 100 2) (95#32).toNat (5#32).toNat = .well ∧
        5 = min 5 (max 1 defaultHost.maxBlockCount)) ∧
      (r1Result (readyCard [.well, .well, .well]) = .well ∧
        r1Result (afterExchange true (readyCard [.well, .well, .well])) = .well ∧
        r1Result (afterExchange true (afterExchange true (readyCard [.well, .well, .well]))) = .well) ∧
      r1Result (readyCard [.error .timeout]) ≠ .well ∧
      r1Result (afterExchange true (readyCard [.well, .error .timeout])) ≠ .well ∧
      r1Result (afterExchange true (afterExchange true (readyCard [.well, .well, .error .timeout]))) ≠ .well :=
  ⟨⟨⟨rfl, rfl⟩, by decide⟩, ⟨⟨rfl, rfl, rfl⟩, by decide, by decide⟩, by decide⟩
theorem test_witness_engine :
    ((readyCard [.error .timeout]).request = none ∧
        RunOf (.rwBlocks (some 0x1000) 0 1 .read) (readyCard [.error .timeout])
          (later 4 (begun (.rwBlocks (some 0x1000) 0 1 .read) (readyCard [.error .timeout])))) ∧
      RunOf (.formatBlocks 99 1) (readyCard [.error .timeout])
        (later 4 (begun (.formatBlocks 99 1) (readyCard [.error .timeout]))) :=
  ⟨⟨rfl, run_later 4 (by decide +kernel)⟩, run_later 4 (by decide +kernel)⟩

end Sys2Proof.Machine
end

/-! The scope of a step (00_scope.md R8, R16, R34): from one control point to the next the block records at most one host-port
call, the one of its position, and writes neither the host binding nor a parameter nor the request port. `Performs` says so of
any two states; one lemma per shared operation keeps it, and the routines of files 42 to 45 are assembled from those. -/

namespace Sys2Proof.Machine

/-! ## `Performs` -/

/-- From `s` to `t` exactly the call `call` is recorded, or none, and the host binding, the parameters and the request port are as
they were. With no call, system memory and the answers to host calls are as they were too: only an acquisition (R327) may have
been drawn. -/
structure Performs (call : Option HostEvent) (s t : State) : Prop where
  host : t.host = s.host
  params : t.params = s.params
  request : t.request = s.request
  trace : t.trace = call.toList ++ s.trace
  silent : call = none → t.mem = s.mem ∧ t.env = { s.env with acquisitions := t.env.acquisitions }

theorem Performs.refl (s : State) : Performs none s s := ⟨rfl, rfl, rfl, rfl, fun _ => ⟨rfl, rfl⟩⟩

/-- An update that leaves these six fields alone, but for the acquisitions, is no call. -/
theorem Performs.keeps {call : Option HostEvent} {s t u : State} (h : Performs call s t) (host : u.host = t.host)
    (params : u.params = t.params) (request : u.request = t.request) (trace : u.trace = t.trace) (mem : u.mem = t.mem)
    (env : u.env = { t.env with acquisitions := u.env.acquisitions }) : Performs call s u where
  host := host.trans h.host
  params := params.trans h.params
  request := request.trans h.request
  trace := trace.trans h.trace
  silent hc := ⟨mem.trans (h.silent hc).1, by rw [env, (h.silent hc).2]⟩

/-- A host-port call records its event. -/
theorem performs_call {s t : State} {e : HostEvent} (host : t.host = s.host) (params : t.params = s.params)
    (request : t.request = s.request) (trace : t.trace = e :: s.trace) : Performs (some e) s t :=
  ⟨host, params, request, trace, nofun⟩

/-- Whichever way a test goes: `try` (R13), a `goto fail`, the end of a loop. -/
theorem Performs.ite {call : Option HostEvent} {s u v : State} {c : Prop} [Decidable c] (hu : Performs call s u)
    (hv : Performs call s v) : Performs call s (if c then u else v) := by
  split
  · exact hu
  · exact hv

section

variable {call : Option HostEvent} {s t : State} {K : List Frame} (h : Performs call s t)
include h

/-! ## The shared operations make no call -/

theorem Performs.setCard (c : Card) : Performs call s (t.setCard c) := h.keeps rfl rfl rfl rfl rfl rfl

theorem Performs.setMode (m : ModeName) : Performs call s (t.setMode m) := h.setCard _

theorem Performs.setCmd (c : CmdReg) : Performs call s (t.setCmd c) := h.keeps rfl rfl rfl rfl rfl rfl

theorem Performs.setPayload (p : Option Payload) : Performs call s (t.setPayload p) := h.keeps rfl rfl rfl rfl rfl rfl

theorem Performs.goto (p : Point) : Performs call s (t.goto p K) := h.keeps rfl rfl rfl rfl rfl rfl

theorem Performs.giveBack (r : Result) : Performs call s (t.giveBack r K) := h.goto _

theorem Performs.endWith (ok : Bool) (code : Option Result) : Performs call s (t.endWith ok code K) := h.goto _

theorem Performs.finish (ok : Bool) (code : Option Result) : Performs call s (t.finish ok code) :=
  h.keeps rfl rfl rfl rfl rfl rfl

theorem Performs.releaseGiveBack (r : Result) : Performs call s (releaseGiveBack r K t) := (h.setPayload none).giveBack r

theorem Performs.startExchange (c : CmdReg) : Performs call s (startExchange c K t) :=
  h.keeps (by simp) (by simp) (by simp) (by simp) (by simp) (by simp)

theorem Performs.acquire (n : Nat) : Performs call s (acquire n t).1 :=
  h.keeps (by simp) (by simp) (by simp) (by simp) (by simp) (by simp)

theorem Performs.takeAcquisition : Performs call s t.takeAcquisition := h.keeps rfl rfl rfl rfl rfl rfl

/-! ## What a routine does up to its first host-port call -/

theorem Performs.enterGoIdle : Performs call s (enterGoIdle K t) := (h.setCmd _).goto _

theorem Performs.enterSendIfCond : Performs call s (enterSendIfCond K t) := h.goto _

theorem Performs.enterAppCmdPrefix : Performs call s (enterAppCmdPrefix K t) := h.startExchange _

theorem Performs.enterSendOpCond (a : Word) : Performs call s (enterSendOpCond a K t) := h.enterAppCmdPrefix

theorem Performs.enterAllSendCid : Performs call s (enterAllSendCid K t) := h.startExchange _

theorem Performs.enterIssueRca : Performs call s (enterIssueRca K t) := h.startExchange _

theorem Performs.enterSwitchVoltage : Performs call s (enterSwitchVoltage K t) := .ite (h.giveBack _) (h.startExchange _)

theorem Performs.startChecked (c : CmdReg) : Performs call s (startChecked c K t) := h.startExchange c

theorem Performs.enterSelectCard (sel : Bool) : Performs call s (enterSelectCard sel K t) := h.startExchange _

theorem Performs.enterGetStatus : Performs call s (enterGetStatus K t) := h.startExchange _

theorem Performs.enterStopTransmission : Performs call s (enterStopTransmission K t) := h.startExchange _

theorem Performs.enterGoInactive : Performs call s (enterGoInactive K t) := h.startExchange _

theorem Performs.enterSetBlockLength (len : Word) : Performs call s (enterSetBlockLength len K t) := h.startChecked _

theorem Performs.enterSetBusWidth (width : Nat) : Performs call s (enterSetBusWidth width K t) :=
  .ite (h.giveBack _) h.enterAppCmdPrefix

theorem Performs.enterSelectFunction (m : SwitchMode) (g i : Nat) : Performs call s (enterSelectFunction m g i K t) :=
  .ite (h.giveBack _) (.ite ((h.acquire 64).giveBack _) ((h.acquire 64).startExchange _))

theorem Performs.enterGetCsd : Performs call s (enterGetCsd K t) := h.startExchange _

theorem Performs.enterSendCid : Performs call s (enterSendCid K t) := h.startExchange _

theorem Performs.enterGetScr : Performs call s (enterGetScr K t) :=
  .ite ((h.acquire 8).giveBack _) (h.acquire 8).enterAppCmdPrefix

theorem Performs.enterNegotiate (g i : Nat) : Performs call s (enterNegotiate g i K t) := h.enterSetBlockLength _

theorem Performs.enterDataCommand (dir : Direction) (n : Nat) (addr : Word) (d : Descriptor) :
    Performs call s (enterDataCommand dir n addr d K t) := by
  cases dir with
  | read => exact .ite (h.startChecked _) (h.startChecked _)
  | write => exact .ite (h.startChecked _) (h.startChecked _)

theorem Performs.enterRwBlocks (buffer : Option Addr) (start count : Word) (dir : Direction) :
    Performs call s (enterRwBlocks buffer start count dir K t) := .ite (h.endWith _ _) (h.goto _)

theorem Performs.enterFormatBlocks (start count : Word) : Performs call s (enterFormatBlocks start count K t) :=
  .ite (h.endWith _ _) (h.goto _)

theorem Performs.enterToNormal : Performs call s (enterToNormal K t) := .ite (h.endWith _ _) h.enterGetCsd

theorem Performs.enterDetect : Performs call s (enterDetect K t) := h.goto _

theorem Performs.enterInitialDevice : Performs call s (enterInitialDevice K t) := h.enterDetect

theorem Performs.enterInactivateDevice : Performs call s (enterInactivateDevice K t) := h.goto _

theorem Performs.freed : Performs call s (freed t) := (h.setCard _).finish _ _

theorem Performs.enterFreeDevice : Performs call s (enterFreeDevice K t) := .ite h.freed h.enterInactivateDevice

/-! ## What a routine does when the one it called has returned -/

theorem Performs.normalFails (r : Result) : Performs call s (normalFails r K t) := h.enterSelectCard false

theorem Performs.csdAnswered (r : Result) : Performs call s (csdAnswered r K t) := by
  refine .ite ?_ (h.giveBack r)
  dsimp only
  split
  · exact h.giveBack _
  · exact (h.setCard _).giveBack _

theorem Performs.polledAnswered (cur : Cursor) (r : Result) : Performs call s (polledAnswered cur r K t) := by
  unfold Machine.polledAnswered
  split
  · exact h.enterDataCommand _ _ _ _
  · exact .ite (h.endWith _ _) (h.goto _)
  · exact h.endWith _ _

theorem Performs.attemptEnds (cur : Cursor) (received : Bool) (r : Result) :
    Performs call s (attemptEnds cur received r K t) :=
  .ite (.ite (h.goto _) (h.endWith _ _)) (.ite (h.endWith _ _) (.ite (h.endWith _ _) (h.goto _)))

theorem Performs.detectOpCondAnswered (v2 : Bool) (k : Nat) (r : Result) :
    Performs call s (detectOpCondAnswered v2 k r K t) := by
  unfold Machine.detectOpCondAnswered
  split
  · exact .ite (h.setMode _).enterSwitchVoltage (h.setMode _).enterAllSendCid
  · exact h.goto _
  · exact h.endWith _ _

theorem Performs.initialDetectAnswered (ok : Bool) (code : Option Result) :
    Performs call s (initialDetectAnswered ok code K t) := .ite h.enterToNormal (h.endWith _ _)

/-- Whatever waits goes on with no host-port call of its own, up to the next one. -/
theorem Performs.answer (f : Frame) (r : Result) : Performs call s (answer f r K t) := by
  cases f with
  | goIdle => exact .ite (((h.setMode _).setCard _).giveBack _) (h.giveBack _)
  | ifCond k => exact .ite (h.giveBack _) (h.goto _)
  | appPrefix => exact .ite (.ite (h.giveBack _) (.ite (h.giveBack _) (h.giveBack _))) (h.giveBack _)
  | opCondPrefix a => exact .ite (h.startExchange _) (h.giveBack _)
  | opCond => exact .ite (.ite (h.giveBack _) ((h.setCard _).giveBack _)) (h.giveBack _)
  | cid => exact .ite ((h.setCard _).giveBack _) (h.giveBack _)
  | rca => exact .ite (.ite (h.giveBack _) ((h.setCard _).giveBack _)) (h.giveBack _)
  | voltage => exact .ite (.ite (h.goto _) (h.giveBack _)) (h.giveBack _)
  | csd => exact h.csdAnswered r
  | scrPrefix => exact .ite (h.releaseGiveBack _) (h.startExchange _)
  | scr => exact .ite (h.releaseGiveBack _) (.ite (h.releaseGiveBack _) (h.goto _))
  | widthPrefix width => exact .ite (h.startChecked _) (h.giveBack _)
  | table => exact .ite (h.releaseGiveBack _) (.ite (h.releaseGiveBack _) (h.goto _))
  | status => exact .ite (.ite (h.giveBack _) (.ite (h.giveBack _) (h.giveBack _))) (h.giveBack _)
  | stop => exact .ite (h.giveBack _) (h.giveBack _)
  | inactive => exact .ite ((h.setMode _).giveBack _) (h.giveBack _)
  | checked => exact .ite (h.giveBack _) (h.giveBack _)
  | sent => exact h.giveBack _
  | checkLength g i => exact .ite (h.enterSelectFunction _ _ _) (h.giveBack _)
  | checkTable g i => exact .ite (.ite (h.giveBack _) (h.enterSetBlockLength _)) (h.giveBack _)
  | switchLength g i => exact .ite (h.enterSelectFunction _ _ _) (h.giveBack _)
  | switchTable g i => exact .ite (.ite (h.giveBack _) (h.giveBack _)) (h.giveBack _)
  | polled cur => exact h.polledAnswered cur r
  | commanded cur => exact .ite (h.goto _) (h.endWith _ _)
  | stopped cur received => exact h.attemptEnds cur received r
  | eraseStart block remaining => exact .ite (h.endWith _ _) (h.startChecked _)
  | eraseEnd block remaining => exact .ite (h.endWith _ _) (h.startChecked _)
  | erased block remaining => exact .ite (h.endWith _ _) (.ite (h.endWith _ _) (h.goto _))
  | detectIdle => exact .ite h.enterSendIfCond (h.endWith _ _)
  | detectIfCond => exact h.goto _
  | detectOpCond v2 k => exact h.detectOpCondAnswered v2 k r
  | detectVoltage => exact .ite h.enterAllSendCid (h.endWith _ _)
  | detectCid => exact .ite (h.setMode _).enterIssueRca (h.endWith _ _)
  | detectRca => exact .ite ((h.setMode _).endWith _ _) (h.endWith _ _)
  | normalCsd => exact .ite (h.enterSelectCard _) (h.normalFails _)
  | normalSelect => exact .ite h.enterGetScr (h.normalFails _)
  | normalScr => exact .ite (.ite (h.enterNegotiate _ _) (h.goto _)) (h.normalFails _)
  | normalSpeed => exact .ite (h.goto _) (h.normalFails _)
  | normalDrive => exact .ite (h.enterNegotiate _ _) (h.normalFails _)
  | normalPower => exact .ite (h.enterSetBlockLength _) (h.normalFails _)
  | normalLength => exact .ite (((h.setCard _).setMode _).endWith _ _) (h.normalFails _)
  | normalDeselect failure => exact (Performs.ite (h.setMode _) h).endWith _ _
  | teardownDeselect => exact h.enterGoIdle
  | teardownIdle => exact (h.setMode _).endWith _ _
  | initialDetect => exact h.initialDetectAnswered _ _
  | initialNormal => exact h.endWith _ _
  | freeDevice => exact h.freed

theorem Performs.controllerReturns (r : Result) : Performs call s (controllerReturns r K t) := by
  cases K with
  | nil => exact h.finish _ _
  | cons f rest => exact h.answer f r

theorem Performs.operationReturns (ok : Bool) (code : Option Result) : Performs call s (operationReturns ok code K t) := by
  unfold Machine.operationReturns
  split
  · exact h.initialDetectAnswered ok code
  · exact h.endWith ok code
  · exact h.freed
  · exact h.finish ok code

end

/-! ## The host-port calls, each with the event it records -/

section

variable (s : State)

theorem hostAddFraming_performs :
    Performs (some (.addFraming s.framingAnswer.1 s.framingAnswer.2)) s (hostAddFraming s) :=
  performs_call rfl rfl rfl rfl

theorem hostSendCommand_performs : Performs (some (.sendCommand s.cmd s.sendCommandAnswer)) s (hostSendCommand s).1 :=
  performs_call rfl rfl rfl rfl

theorem hostRecvResponse_performs : Performs (some (.recvResponse s.responseAnswer)) s (hostRecvResponse s) :=
  performs_call rfl rfl rfl rfl

theorem hostSendData_performs (d : Descriptor) :
    Performs
      (some (.sendData d (if s.sendDataAnswer = .well then s.mem.readBytes (d.txBuffer.getD 0) d.capacity.toNat else [])
        s.sendDataAnswer)) s (hostSendData d s).1 := performs_call rfl rfl rfl rfl

theorem receive_trace (b : Option Buffer) (bytes : List Byte) : (s.receive b bytes).trace = s.trace := by
  unfold State.receive
  split <;> rfl

theorem hostRecvData_performs (d : Descriptor) :
    Performs (some (.recvData d (s.recvDataBytes d.capacity.toNat) s.recvDataAnswer)) s (hostRecvData d s).1 :=
  performs_call (by simp) (by simp) (by simp) (by simp [hostRecvData, receive_trace])

theorem hostIsCardInserted_performs : Performs (some (.isCardInserted s.insertedAnswer)) s (hostIsCardInserted s).1 :=
  performs_call rfl rfl rfl rfl

theorem hostActivateCard_performs :
    Performs (some (.activateCard s.params.activateTimeout s.activatedAnswer)) s (hostActivateCard s).1 :=
  performs_call rfl rfl rfl rfl

theorem hostSwitchVoltage_performs : Performs (some (.switchVoltage1V8 s.voltageAnswer)) s (hostSwitchVoltage s).1 :=
  performs_call rfl rfl rfl rfl

theorem hostSetBusWidth_performs (w : BusWidth) : Performs (some (.setBusWidth w)) s (hostSetBusWidth w s) :=
  performs_call rfl rfl rfl rfl

theorem hostSetClockFrequency_performs (c : ClockClass) :
    Performs (some (.setClockFrequency c)) s (hostSetClockFrequency c s) := performs_call rfl rfl rfl rfl

/-- The call of a data phase is the one `callAt` gives its position: on a write the bytes are those at the cursor's buffer. -/
theorem dataPhase_performs (cur : Cursor) :
    Performs (callAt s (.blockData cur)) s
      (dataPhase cur.dir (blockDescriptor s cur.dir cur.buffer (cur.blocks s)) s).1 := by
  obtain ⟨dir, buffer, block, remaining, retry, polls⟩ := cur
  cases dir with
  | read => exact hostRecvData_performs s _
  | write => exact hostSendData_performs s _

/-- R16: the step at a position makes the call of that position, if it is one, and no other. -/
theorem advance_performs (p : Point) (K : List Frame) : Performs (callAt s p) s (advance p K s) := by
  cases p with
  | addFraming => exact (hostAddFraming_performs s).goto _
  | sendCommand => exact .ite ((hostSendCommand_performs s).goto _) ((hostSendCommand_performs s).giveBack _)
  | recvResponse => exact (hostRecvResponse_performs s).giveBack _
  | drain => exact (hostRecvResponse_performs s).startExchange _
  | voltage =>
    have hc := hostSwitchVoltage_performs s
    exact .ite ((hc.setCard _).giveBack _) (hc.giveBack _)
  | scrData =>
    have hc := hostRecvData_performs s (payloadDescriptor scrLen)
    exact .ite (hc.releaseGiveBack _) ((hc.setCard _).releaseGiveBack _)
  | tableData =>
    have hc := hostRecvData_performs s (payloadDescriptor switchBlockLen)
    exact .ite (hc.releaseGiveBack _) ((hc.setCard _).releaseGiveBack _)
  | insertion k =>
    have hc := hostIsCardInserted_performs s
    exact .ite (hc.goto _) (.ite (hc.endWith _ _) (hc.goto _))
  | identificationBus => exact (hostSetBusWidth_performs s .one).goto _
  | identificationClock => exact (hostSetClockFrequency_performs s .f400K).goto _
  | activation =>
    have hc := hostActivateCard_performs s
    exact .ite (hc.endWith _ _) hc.enterGoIdle
  | transferClock =>
    have hc := hostSetClockFrequency_performs s .f25M
    exact .ite (hc.enterNegotiate _ _) (hc.enterSetBlockLength _)
  | teardownBus => exact (hostSetBusWidth_performs s .one).enterSelectCard _
  | blockData cur =>
    have hc := dataPhase_performs s cur
    exact .ite hc.enterStopTransmission (hc.attemptEnds _ _ _)
  | ifCondAttempt k last => exact .ite ((Performs.refl s).giveBack _) ((Performs.refl s).startExchange _)
  | opCondIteration v2 k => exact .ite ((Performs.refl s).endWith _ _) ((Performs.refl s).enterSendOpCond _)
  | statusPoll cur => exact (Performs.refl s).enterGetStatus
  | eraseChunk block remaining => exact (Performs.refl s).startChecked _
  | returned r => exact (Performs.refl s).controllerReturns r
  | ended ok code => exact (Performs.refl s).operationReturns ok code

end

/-! ## Requests -/

theorem runOperation_performs {enter : List Frame → State → State} {s t : State}
    (henter : Performs none s.begin (enter [] s.begin)) (h : runOperation enter s = .next t) : Performs none s.begin t := by
  rcases runOperation_cases enter s with ⟨-, he⟩ | ⟨-, -, he⟩ | ⟨-, -, he⟩
  · cases he ▸ h
  · cases he ▸ h
    exact (Performs.refl s.begin).finish _ _
  · cases he ▸ h
    exact henter

theorem allocateDevice_performs (s : State) : Performs none s (allocateDevice s) := by
  have hs := Performs.refl s
  exact .ite (hs.finish _ _) (.ite (hs.takeAcquisition.finish _ _)
    (.ite (hs.takeAcquisition.finish _ _) ((hs.takeAcquisition.setCard _).finish _ _)))

/-- A request makes no host-port call before its first step. -/
theorem exec_performs {s t : State} {i : Instr} (h : exec i s = .next t) : Performs none s.begin t := by
  have hs := Performs.refl s.begin
  cases i with
  | cmd0 => exact runOperation_performs hs.enterGoIdle h
  | cmd2 => exact runOperation_performs hs.enterAllSendCid h
  | cmd3 => exact runOperation_performs hs.enterIssueRca h
  | cmd6 m g i => exact runOperation_performs (hs.enterSelectFunction m g i) h
  | cmd7 sel => exact runOperation_performs (hs.enterSelectCard sel) h
  | cmd8 => exact runOperation_performs hs.enterSendIfCond h
  | cmd9 => exact runOperation_performs hs.enterGetCsd h
  | cmd10 => exact runOperation_performs hs.enterSendCid h
  | cmd11 => exact runOperation_performs hs.enterSwitchVoltage h
  | cmd12 => exact runOperation_performs hs.enterStopTransmission h
  | cmd13 => exact runOperation_performs hs.enterGetStatus h
  | cmd15 => exact runOperation_performs hs.enterGoInactive h
  | cmd16 len => exact runOperation_performs (hs.enterSetBlockLength len) h
  | cmd17 addr => exact runOperation_performs (hs.startChecked _) h
  | cmd18 addr => exact runOperation_performs (hs.startChecked _) h
  | cmd24 addr => exact runOperation_performs (hs.startChecked _) h
  | cmd25 addr => exact runOperation_performs (hs.startChecked _) h
  | cmd32 addr => exact runOperation_performs (hs.startChecked _) h
  | cmd33 addr => exact runOperation_performs (hs.startChecked _) h
  | cmd38 => exact runOperation_performs (hs.startChecked _) h
  | cmd55 => exact runOperation_performs hs.enterAppCmdPrefix h
  | acmd6 width => exact runOperation_performs (hs.enterSetBusWidth width) h
  | acmd41 a => exact runOperation_performs (hs.enterSendOpCond a) h
  | acmd51 => exact runOperation_performs hs.enterGetScr h
  | allocateDevice =>
    simp only [exec, execAllocateDevice] at h
    split at h <;> cases h
    exact allocateDevice_performs s.begin
  | freeDevice => exact runOperation_performs hs.enterFreeDevice h
  | initialDevice => exact runOperation_performs hs.enterInitialDevice h
  | inactivateDevice => exact runOperation_performs hs.enterInactivateDevice h
  | detect => exact runOperation_performs hs.enterDetect h
  | toNormal => exact runOperation_performs hs.enterToNormal h
  | rwBlocks buffer start count dir => exact runOperation_performs (hs.enterRwBlocks buffer start count dir) h
  | formatBlocks start count => exact runOperation_performs (hs.enterFormatBlocks start count) h
  | reservedOp op => cases h

/-- Describe mode (R180) makes no host-port call. -/
theorem execDescribe_performs {s t : State} {i : Instr} (h : execDescribe i s = .next t) : Performs none s.begin t := by
  have hs := Performs.refl s.begin
  unfold execDescribe at h
  split at h
  · cases h
  · split at h <;> cases h
    · exact hs.finish _ _
    · exact hs.keeps rfl rfl rfl rfl rfl rfl

/-! ## The descriptors of the data phases (R38, R39) -/

theorem blockDescriptor_read (s : State) (p : Addr) (n : Nat) :
    blockDescriptor s .read p n =
      { blockSize := s.card.blockSize
        blockCount := BitVec.ofNat 32 n
        capacity := BitVec.ofNat 64 (n * s.card.blockSize.toNat)
        rxBuffer := some (.system p)
        txBuffer := none
        flags := 0#1 ++ ((if 1 < n ∧ s.host.autoCmd12 = true then 1#1 else 0#1) ++ 1#1) } := by
  simp only [blockDescriptor, Descriptor.mk.injEq, true_and]
  split <;> rfl

theorem blockDescriptor_write (s : State) (p : Addr) (n : Nat) :
    blockDescriptor s .write p n =
      { blockSize := s.card.blockSize
        blockCount := BitVec.ofNat 32 n
        capacity := BitVec.ofNat 64 (n * s.card.blockSize.toNat)
        rxBuffer := none
        txBuffer := some p
        flags := 0#1 ++ ((if 1 < n ∧ s.host.autoCmd12 = true then 1#1 else 0#1) ++ 0#1) } := by
  simp only [blockDescriptor, Descriptor.mk.injEq, true_and]
  split <;> rfl

/-- Settles O14: the step is `advance`, which makes the call of its position; a request ends or stops before its first call. -/
theorem everyStepIsOneHostCallOrNone : Obligations.EveryStepIsOneHostCallOrNone := by
  unfold Obligations.EveryStepIsOneHostCallOrNone
  refine ⟨fun s p K h => ?_, fun s t i h => ?_, fun s p n auto hauto => ?_, rfl, rfl⟩
  · have ha := advance_performs s p K
    exact ⟨_, step_at h, ha.trace, ha.silent⟩
  · have hx := exec_performs h
    exact ⟨hx.trace, hx.silent rfl⟩
  · subst hauto
    exact ⟨blockDescriptor_read s p n, blockDescriptor_write s p n⟩

/-! ## The configuration -/

theorem resume_performs (s : State) : ∃ call, Performs call s (resume s) := by
  unfold resume
  split
  · exact ⟨_, .refl s⟩
  · exact ⟨_, advance_performs s _ _⟩

/-- An instruction runs, in execute or in describe mode, in the state whose request has just been taken from the port (R351). -/
theorem fetch_takes_request {s u : State} {i : Instr} (h : fetch s = .execute i u ∨ fetch s = .describe i u) :
    ∃ r, u = s.takeRequest r := by
  unfold fetch at h
  split at h
  · split at h <;> simp at h
  next r _ =>
    split_ifs at h
    · simp at h
    · split at h
      · simp at h
      · refine ⟨r, ?_⟩
        split at h
        · obtain h | h := h <;> cases h; rfl
        · obtain h | h := h <;> cases h; rfl

/-- A step that answers a next state waits at the port, goes on with the operation in progress, or begins the request it takes
from the port. -/
theorem step_performs {s t : State} (h : step s = .next t) :
    (∃ call, Performs call s t) ∨ ∃ r, Performs none (s.takeRequest r).begin t := by
  unfold step at h
  cases hf : fetch s with
  | nothing =>
    simp only [hf, Host.Outcome.next.injEq] at h
    subst h
    exact .inl ⟨_, .refl s⟩
  | inProgress =>
    simp only [hf, Host.Outcome.next.injEq] at h
    subst h
    exact .inl (resume_performs s)
  | overlapping => simp [hf] at h
  | undecodable why => simp [hf] at h
  | execute i u =>
    simp only [hf] at h
    obtain ⟨r, rfl⟩ := fetch_takes_request (.inl hf)
    exact .inr ⟨r, exec_performs h⟩
  | describe i u =>
    simp only [hf] at h
    obtain ⟨r, rfl⟩ := fetch_takes_request (.inr hf)
    exact .inr ⟨r, execDescribe_performs h⟩

/-- Settles O16: `Performs` keeps the host binding, the parameters and the port, and a request taken from the port leaves it
empty. -/
theorem stepsNeverWriteTheConfiguration : Obligations.StepsNeverWriteTheConfiguration := by
  unfold Obligations.StepsNeverWriteTheConfiguration
  intro s t h
  obtain ⟨call, hp⟩ | ⟨r, hp⟩ := step_performs h
  · exact ⟨hp.host, hp.params, .inl hp.request⟩
  · exact ⟨hp.host, hp.params, .inr hp.request⟩

/-! ## Returns -/

theorem enterToNormal_refused {s : State} (K : List Frame) (h : s.card.rca = 0#16 ∨ s.card.mode = ModeName.inactive.bits) :
    enterToNormal K s = s.endWith false none K := if_pos (h.imp_right (decide_eq_true ·))

theorem enterToNormal_admitted {s : State} (K : List Frame) (hrca : s.card.rca ≠ 0#16)
    (hmode : s.card.mode ≠ ModeName.inactive.bits) : enterToNormal K s = enterGetCsd (.normalCsd :: K) s :=
  if_neg (not_or.2 ⟨hrca, fun h => hmode (of_decide_eq_true h)⟩)

/-- Settles O15: the step at a return is what `controllerReturns` and `operationReturns` give its stack. -/
theorem returnsUnwindTheCalls : Obligations.ReturnsUnwindTheCalls := by
  unfold Obligations.ReturnsUnwindTheCalls
  intro s r ok code stack
  refine ⟨step_at, step_at, step_at, fun h => ⟨fun hg => ?_, fun hrca hmode => ?_⟩, step_at, step_at⟩
  · rw [step_at h]
    exact congrArg _ (enterToNormal_refused _ hg)
  · rw [step_at h]
    exact congrArg _ (enterToNormal_admitted _ hrca hmode)

end Sys2Proof.Machine

/-! The call nesting (10_state.md R50, R329), beyond `nested`: how deep each routine can stand, which routines run under a block
operation, and what a return may carry. -/

namespace Sys2Proof.Machine

/-! ## Routines and the frames that wait for them -/

/-- How many frames can wait while a routine runs. SetBusWidth is one of the routines `checked` stands for, and is counted here as
if an operation called it, which none does: hence 5 for `exchange`, where a run has at most 4. -/
def Routine.depth : Routine → Nat
  | .rwBlocks | .formatBlocks | .initialDevice | .freeDevice => 0
  | .detect | .toNormal | .inactivateDevice => 1
  | .goIdle | .sendIfCond | .sendOpCond | .readCid | .issueRca | .switchVoltage | .getCsd | .getScr | .getStatus
  | .stopTransmission | .goInactive | .negotiate => 2
  | .selectFunction | .checked => 3
  | .appCmdPrefix => 4
  | .exchange => 5

/-- The block operations and the routines that may run under them. None of these writes the Card, so that the blocks which a
waiting block operation holds stay on the card. -/
def Routine.servesBlocks : Routine → Bool
  | .rwBlocks | .formatBlocks | .getStatus | .stopTransmission | .checked | .appCmdPrefix | .exchange => true
  | .goIdle | .sendIfCond | .sendOpCond | .readCid | .issueRca | .switchVoltage | .getCsd | .getScr | .selectFunction
  | .goInactive | .negotiate | .detect | .toNormal | .initialDevice | .inactivateDevice | .freeDevice => false

/-- A caller stands less deep than the routine it calls. -/
theorem Frame.depth_lt (f : Frame) : f.routine.depth < f.calls.depth := by
  cases f <;> simp [Frame.routine, Frame.calls, Routine.depth]

theorem nested_length_le {b r : Routine} {K : List Frame} (h : nested b r K) : K.length ≤ r.depth := by
  induction K generalizing r with
  | nil => exact Nat.zero_le _
  | cons f rest ih =>
    obtain ⟨rfl, hrest⟩ := h
    exact Nat.succ_le_of_lt ((ih hrest).trans_lt f.depth_lt)

/-- What a block operation calls serves it. -/
theorem Frame.calls_servesBlocks (f : Frame) (h : f.calls.servesBlocks = false) : f.routine.servesBlocks = false := by
  revert h
  cases f <;> simp [Frame.calls, Frame.routine, Routine.servesBlocks]

/-- No block operation waits for a routine that serves none. -/
theorem nested_servesBlocks {b r : Routine} {K : List Frame} (h : nested b r K) (hr : r.servesBlocks = false) :
    ∀ f ∈ K, f.routine.servesBlocks = false := by
  induction K generalizing r with
  | nil => nofun
  | cons f rest ih =>
    obtain ⟨rfl, hrest⟩ := h
    have hf := f.calls_servesBlocks hr
    exact List.forall_mem_cons.2 ⟨hf, ih hrest hf⟩

/-- A return is made by the routine that runs. -/
theorem nested_returner {b r : Routine} {K : List Frame} (h : nested b r K) : (K.head?.map Frame.calls).getD b = r := by
  cases K with
  | nil => exact h.symm
  | cons f rest => exact h.1

/-! ## What a return carries (R320, R321) -/

/-- The sentinels of the core's loops. -/
def Result.isSentinel : Result → Bool
  | .retry | .notReady => true
  | .well | .nullPtr | .argFault | .notSupported | .checkErr | .crcErr | .sendCmdFail | .recvDataFail | .sendDataFail
  | .transStopFail | .memErr | .anyError | .timeout => false

/-- What a controller that loops on no sentinel returns. -/
def Plain (x : Result) : Prop := x.isSentinel = false

theorem plain_iff {x : Result} : Plain x ↔ x ≠ .retry ∧ x ≠ .notReady := by
  unfold Plain
  cases x <;> simp [Result.isSentinel]

theorem isFailure_iff {x : Result} : isFailure x ↔ x ≠ .well ∧ Plain x := and_congr_right' plain_iff.symm

/-- What the controller `r` may return. -/
def Returns (r : Routine) (x : Result) : Prop :=
  r.isOperation = false ∧ (x = .retry → r = .sendOpCond) ∧ (x = .notReady → r = .getStatus)

/-- The controllers that return a sentinel. -/
def Routine.returnsSentinel : Routine → Bool
  | .sendOpCond | .getStatus => true
  | .exchange | .goIdle | .sendIfCond | .appCmdPrefix | .readCid | .issueRca | .switchVoltage | .getCsd | .getScr
  | .selectFunction | .stopTransmission | .goInactive | .checked | .negotiate | .rwBlocks | .formatBlocks | .detect | .toNormal
  | .initialDevice | .inactivateDevice | .freeDevice => false

theorem Plain.returns {r : Routine} {x : Result} (h : Plain x) (hr : r.isOperation = false) : Returns r x :=
  ⟨hr, fun hx => absurd hx (plain_iff.1 h).1, fun hx => absurd hx (plain_iff.1 h).2⟩

theorem Returns.plain {r : Routine} {x : Result} (h : Returns r x) (hr : r.returnsSentinel = false) : Plain x :=
  plain_iff.2 ⟨fun hx => Bool.noConfusion (h.2.1 hx ▸ hr : Routine.sendOpCond.returnsSentinel = false),
    fun hx => Bool.noConfusion (h.2.2 hx ▸ hr : Routine.getStatus.returnsSentinel = false)⟩

/-- What a public operation may report (R321). -/
def PlainCode (code : Option Result) : Prop := code ≠ some .retry ∧ code ≠ some .notReady

theorem Plain.code {x : Result} (h : Plain x) : PlainCode (some x) :=
  (plain_iff.1 h).imp (mt Option.some.inj) (mt Option.some.inj)

theorem plainCode_none : PlainCode none := ⟨nofun, nofun⟩

theorem plain_hostCode (x : HostResult) : Plain (hostCode x) :=
  have h := hostCode_not_sentinel x
  plain_iff.2 ⟨h.1, h.2.1⟩

theorem plain_r1Code (s : State) : Plain (r1Code s) := by
  unfold r1Code
  split <;> rfl

/-! ## The locals' bounds (R44) depend on the host, the parameters and the Card only -/

theorem frameInBounds_congr {s t : State} (host : t.host = s.host) (params : t.params = s.params) {f : Frame}
    (card : t.card = s.card ∨ f.routine.servesBlocks = false) (h : frameInBounds s f) : frameInBounds t f := by
  cases f
  case ifCond | detectOpCond | voltage => simpa only [frameInBounds, host, params] using h
  case polled | commanded | stopped | eraseStart | eraseEnd | erased =>
    have hcard : t.card = s.card := card.resolve_right nofun
    simpa only [frameInBounds, cursorInBounds, params, hcard] using h
  all_goals exact h

end Sys2Proof.Machine

/-! A routine in the middle of a request: `Running b r K s` says that `r` runs for the request of routine `b` with `K` waiting, and
that everything `Inv` says of the control point but the position itself holds; `ControlInv` is that part of `Inv`. One rule per
shared operation leads from the first to the second, and the routines of files 42 to 45 are assembled from those. -/

namespace Sys2Proof.Machine

/-- What `Inv` says of the control point, for a request of routine `b`. -/
structure ControlInv (b : Routine) (s : State) : Prop where
  payload : s.payload ≠ none → holdsPayload s.control = true
  idle : s.control = .idle → s.cmd = CmdReg.blank ∧ s.callerDesc = none
  allocated : s.control ≠ .idle → s.card.allocated = true
  nesting : controlNested b s.control
  bounds : controlInBounds s
  framed : s.host.framing = .coreCRC7 → ∀ stack, s.control = .running .sendCommand stack → frameValid s.cmd.wire = true

/-- Routine `r` runs for the request of routine `b`, with `K` waiting. -/
structure Inside (b r : Routine) (K : List Frame) (s : State) : Prop where
  nested : nested b r K
  depth : K.length ≤ 4
  frames : ∀ f ∈ K, frameInBounds s f
  allocated : s.card.allocated = true

/-- The same while `r` itself holds no payload buffer. -/
structure Running (b r : Routine) (K : List Frame) (s : State) : Prop extends Inside b r K s where
  payload : s.payload ≠ none → K.any Frame.holdsPayload = true

/-- Nothing of a request is left. -/
theorem controlInv_idle {s : State} (b : Routine) (hc : s.control = .idle) (hp : s.payload = none)
    (hr : s.cmd = CmdReg.blank) (hd : s.callerDesc = none) : ControlInv b s where
  payload h := absurd hp h
  idle _ := ⟨hr, hd⟩
  allocated h := absurd hc h
  nesting := by rw [hc]; trivial
  bounds := by unfold controlInBounds; rw [hc]; trivial
  framed _ _ h := by rw [hc] at h; cases h

theorem ControlInv.finish {b : Routine} (s : State) (ok : Bool) (code : Option Result) : ControlInv b (s.finish ok code) :=
  controlInv_idle b rfl rfl rfl rfl

theorem ControlInv.ite {b : Routine} {u v : State} {c : Prop} [Decidable c] (hu : c → ControlInv b u)
    (hv : ¬c → ControlInv b v) : ControlInv b (if c then u else v) := by
  split
  next h => exact hu h
  next h => exact hv h

/-- The payload buffer that a waiting frame holds is held at every position above it. -/
theorem holdsPayload_running (p : Point) {K : List Frame} (h : K.any Frame.holdsPayload = true) :
    holdsPayload (.running p K) = true := by
  cases p
  case scrData | tableData => rfl
  all_goals exact h

/-! ## The frame that goes on the wire (R165) -/

/-- Feeding the register its own bits clears it. -/
theorem crc7_feed_itself (c : BitVec 7) :
    [7, 6, 5, 4, 3, 2, 1].foldl (fun r k => crc7Bit r ((crcByte c).getLsbD k)) c = 0#7 := by
  revert c; decide

/-- R80: the bits of a frame, from its three parts. -/
theorem frameBits_getLsbD (ib : Byte) (arg : Word) (crc : Byte) (k : Nat) : (frameBits ib arg crc).getLsbD k =
    if k < 8 then crc.getLsbD k else if k - 8 < 32 then arg.getLsbD (k - 8) else ib.getLsbD (k - 8 - 32) := by
  show (ib ++ arg ++ crc : BitVec (8 + 32 + 8)).getLsbD k = _
  rw [BitVec.getLsbD_append, BitVec.getLsbD_append]

theorem frameBits_index (ib : Byte) (arg : Word) (crc : Byte) : (frameBits ib arg crc).extractLsb 47 40 = ib := by
  refine BitVec.eq_of_getLsbD_eq fun k hk => ?_
  rw [BitVec.getLsbD_extractLsb, frameBits_getLsbD, if_neg (by omega), if_neg (by omega),
    show 40 + k - 8 - 32 = k by omega]
  simp; omega

theorem frameBits_argument (ib : Byte) (arg : Word) (crc : Byte) (start len : Nat) (h : start + len ≤ 32) :
    (frameBits ib arg crc).extractLsb' (8 + start) len = arg.extractLsb' start len := by
  refine BitVec.eq_of_getLsbD_eq fun k hk => ?_
  rw [BitVec.getLsbD_extractLsb', BitVec.getLsbD_extractLsb', frameBits_getLsbD, if_neg (by omega), if_pos (by omega),
    show 8 + start + k - 8 = start + k by omega]

/-- R81, R165: the message of a frame is its command buffer. -/
theorem frameBits_message (ib : Byte) (arg : Word) (crc : Byte) :
    [(frameBits ib arg crc).extractLsb 47 40, (frameBits ib arg crc).extractLsb 39 32,
      (frameBits ib arg crc).extractLsb 31 24, (frameBits ib arg crc).extractLsb 23 16,
      (frameBits ib arg crc).extractLsb 15 8] = commandBuffer ib arg := by
  have harg := fun start => frameBits_argument ib arg crc start 8
  simp only [commandBuffer, List.cons.injEq, and_true]
  exact ⟨frameBits_index ib arg crc, harg 24 (by decide), harg 16 (by decide), harg 8 (by decide), harg 0 (by decide)⟩

/-- R163, R165: a receiver accepts what the core's framer makes of a command register. -/
theorem framed_wire_valid (c : CmdReg) : frameValid c.framed.wire = true := by
  set ib := startBits c.index
  set crc := crc7 (commandBuffer ib c.argument) with hcrc
  show decide (_ = 0#7) = true
  have hwire : c.framed.wire = frameBits ib c.argument (crcByte crc) := rfl
  have hmessage := frameBits_message ib c.argument (crcByte crc)
  rw [decide_eq_true_eq, hwire, hmessage, ← hcrc]
  refine Eq.trans ?_ (crc7_feed_itself crc)
  refine List.foldl_ext _ _ _ fun r k hk => ?_
  rw [frameBits_getLsbD, if_pos (by simp at hk; omega)]

/-! ## What leaves a routine running -/

section

variable {b r : Routine} {K : List Frame} {s t : State}

/-- The stack and the locals of those that wait depend on the host, the parameters and the Card only; and on the Card only where
a block operation may wait. -/
theorem Inside.keeps (h : Inside b r K s) (host : t.host = s.host) (params : t.params = s.params)
    (card : t.card = s.card ∨ r.servesBlocks = false ∧ t.card.allocated = s.card.allocated) : Inside b r K t where
  nested := h.nested
  depth := h.depth
  frames f hf := frameInBounds_congr host params
    (card.imp_right fun hc => nested_servesBlocks h.nested hc.1 f hf) (h.frames f hf)
  allocated := by
    obtain hc | hc := card
    · rw [hc]; exact h.allocated
    · exact hc.2.trans h.allocated

theorem Running.keeps (h : Running b r K s) (host : t.host = s.host) (params : t.params = s.params)
    (card : t.card = s.card ∨ r.servesBlocks = false ∧ t.card.allocated = s.card.allocated)
    (payload : t.payload = s.payload) : Running b r K t :=
  ⟨h.toInside.keeps host params card, fun hp => h.payload (payload ▸ hp)⟩

/-- A routine that serves no block operation writes the Card. -/
theorem Running.setCard (h : Running b r K s) (c : Card) (hc : c.allocated = s.card.allocated)
    (hr : r.servesBlocks = false) : Running b r K (s.setCard c) :=
  h.keeps rfl rfl (.inr ⟨hr, hc⟩) rfl

theorem Running.setMode (h : Running b r K s) (m : ModeName) (hr : r.servesBlocks = false) :
    Running b r K (s.setMode m) := h.setCard _ rfl hr

theorem Running.setCmd (h : Running b r K s) (c : CmdReg) : Running b r K (s.setCmd c) := h.keeps rfl rfl (.inl rfl) rfl

/-- Releasing the payload buffer leaves none to hold. -/
theorem Inside.release (h : Inside b r K s) : Running b r K (s.setPayload none) :=
  ⟨h.keeps rfl rfl (.inl rfl), fun hp => absurd rfl hp⟩

theorem Inside.length_le (h : Inside b r K s) : K.length ≤ r.depth := nested_length_le h.nested

/-! ## Calls and returns -/

/-- The routine of `f` calls another and waits in `f`. -/
theorem Inside.push (f : Frame) (h : Inside b f.routine K s) (hl : K.length ≤ 3) (hf : frameInBounds s f) :
    Inside b f.calls (f :: K) s where
  nested := ⟨rfl, h.nested⟩
  depth := Nat.succ_le_succ hl
  frames := List.forall_mem_cons.2 ⟨hf, h.frames⟩
  allocated := h.allocated

theorem Running.push (f : Frame) (h : Running b f.routine K s) (hl : decide (f.routine.depth ≤ 3) = true)
    (hf : frameInBounds s f) : Running b f.calls (f :: K) s :=
  ⟨h.toInside.push f (h.length_le.trans (of_decide_eq_true hl)) hf, fun hp => by simp [h.payload hp]⟩

/-- The routine that waits in `f` goes on. -/
theorem Inside.pop {f : Frame} (h : Inside b r (f :: K) s) : Inside b f.routine K s where
  nested := h.nested.2
  depth := (Nat.le_succ _).trans h.depth
  frames := (List.forall_mem_cons.1 h.frames).2
  allocated := h.allocated

theorem Inside.frame {f : Frame} (h : Inside b r (f :: K) s) : frameInBounds s f := h.frames f (by simp)

theorem Running.pop {f : Frame} (h : Running b r (f :: K) s) (hf : f.holdsPayload = false) : Running b f.routine K s :=
  ⟨h.toInside.pop, fun hp => by simpa [hf] using h.payload hp⟩

/-! ## Where the pseudocode goes on -/

theorem Inside.goto {p : Point} (h : Inside b (p.routine b K) K s)
    (hpayload : s.payload ≠ none → holdsPayload (.running p K) = true) (hreturn : returnsLegally b K p)
    (hp : pointInBounds s p)
    (hframed : s.host.framing = .coreCRC7 → p = .sendCommand → frameValid s.cmd.wire = true) :
    ControlInv b (s.goto p K) where
  payload := hpayload
  idle := nofun
  allocated _ := h.allocated
  nesting := ⟨h.nested, hreturn, h.depth⟩
  bounds := ⟨hp, h.frames⟩
  framed hc _ he := by cases he; exact hframed hc rfl

/-- The positions that are no return and send no frame. -/
def Point.isLine : Point → Bool
  | .sendCommand | .returned _ | .ended _ _ => false
  | .addFraming | .recvResponse | .drain | .voltage | .scrData | .tableData | .insertion _ | .identificationBus
  | .identificationClock | .activation | .transferClock | .teardownBus | .blockData _ | .ifCondAttempt _ _
  | .opCondIteration _ _ | .statusPoll _ | .eraseChunk _ _ => true

theorem returnsLegally_line {p : Point} (h : p.isLine = true) : returnsLegally b K p := by
  cases p
  case returned | ended => cases h
  all_goals trivial

theorem Running.goto {p : Point} (h : Running b (p.routine b K) K s) (hline : p.isLine = true) (hp : pointInBounds s p) :
    ControlInv b (s.goto p K) :=
  h.toInside.goto (fun hs => holdsPayload_running p (h.payload hs)) (returnsLegally_line hline) hp
    fun _ hs => by subst hs; cases hline

theorem Running.giveBack {x : Result} (h : Running b r K s) (hx : Returns r x) : ControlInv b (s.giveBack x K) := by
  obtain rfl : Point.routine b K (.returned x) = r := nested_returner h.nested
  exact h.toInside.goto (p := .returned x) h.payload hx trivial nofun

/-- A controller's own `return`, with a result that is no sentinel. -/
theorem Running.givesPlain {x : Result} (h : Running b r K s) (hx : Plain x)
    (hr : r.isOperation = false) : ControlInv b (s.giveBack x K) := h.giveBack (hx.returns hr)

/-- A controller writes the Card and returns. -/
theorem Running.writesCard {c : Card} {x : Result} (h : Running b r K s) (hr : r.servesBlocks = false)
    (hc : c.allocated = s.card.allocated) (hx : Plain x) (hop : r.isOperation = false) :
    ControlInv b ((s.setCard c).giveBack x K) := (h.setCard c hc hr).givesPlain hx hop

theorem Running.endWith (h : Running b r K s) (ok : Bool) {code : Option Result} (hcode : PlainCode code)
    (hr : r.isOperation = true) : ControlInv b (s.endWith ok code K) := by
  obtain rfl : Point.routine b K (.ended ok code) = r := nested_returner h.nested
  exact h.toInside.goto (p := .ended ok code) h.payload ⟨hr, hcode⟩ trivial nofun

/-- `release()`, then `return x`. -/
theorem Inside.releaseGiveBack {x : Result} (h : Inside b r K s) (hx : Plain x)
    (hr : r.isOperation = false) : ControlInv b (releaseGiveBack x K s) := h.release.givesPlain hx hr

/-- An exchange begins with a frame that a receiver accepts, or with `add_framing`. -/
theorem Inside.startExchange {c : CmdReg} (h : Inside b .exchange K s)
    (hpayload : s.payload ≠ none → K.any Frame.holdsPayload = true) : ControlInv b (startExchange c K s) := by
  cases hf : s.host.framing with
  | coreCRC7 =>
    rw [startExchange_coreCRC7 c K s hf]
    exact Inside.goto (p := .sendCommand) (h.keeps rfl rfl (.inl rfl)) hpayload trivial trivial
      fun _ _ => framed_wire_valid c
  | hostOverride =>
    rw [startExchange_hostOverride c K s hf]
    exact Inside.goto (p := .addFraming) (h.keeps rfl rfl (.inl rfl)) hpayload trivial hf nofun

/-- A routine sends a command and waits in `f`. -/
theorem Running.call {f : Frame} {c : CmdReg} (h : Running b f.routine K s) (hf : f.calls = .exchange)
    (hl : decide (f.routine.depth ≤ 3) = true) (hb : frameInBounds s f) :
    ControlInv b (Machine.startExchange c (f :: K) s) := by
  have ht := h.push f hl hb
  rw [hf] at ht
  exact ht.toInside.startExchange ht.payload

/-- `try` (R13): a result that is no sentinel is passed up. -/
theorem Running.afterCall {x : Result} {k : State → State} (h : Running b r K s) (hr : r.isOperation = false)
    (hx : Plain x) (hk : x = .well → ControlInv b (k s)) : ControlInv b (afterCall x K s k) :=
  .ite hk fun _ => h.givesPlain hx hr

end

section

variable {b : Routine} {K : List Frame} {s : State}

/-! ## What a routine does up to its first host-port call -/

theorem Running.enterGoIdle (h : Running b .goIdle K s) : ControlInv b (enterGoIdle K s) := (h.setCmd _).goto rfl trivial

theorem Running.enterSendIfCond (h : Running b .sendIfCond K s) : ControlInv b (enterSendIfCond K s) :=
  h.goto rfl ⟨le_rfl, Nat.le_add_left _ _, isFailure_iff.2 ⟨nofun, rfl⟩⟩

/-- CMD55 stands deepest of all that send a command. -/
theorem Running.enterAppCmdPrefix (h : Running b .appCmdPrefix K s) (hl : K.length ≤ 3) :
    ControlInv b (enterAppCmdPrefix K s) :=
  Inside.startExchange (h.toInside.push .appPrefix hl trivial) fun hp => by simp [h.payload hp]

theorem Running.enterSendOpCond (h : Running b .sendOpCond K s) (a : Word) : ControlInv b (enterSendOpCond a K s) :=
  (h.push (.opCondPrefix a) rfl trivial).enterAppCmdPrefix (Nat.succ_le_succ h.length_le)

theorem Running.enterReadCid (h : Running b .readCid K s) (c : CmdReg) : ControlInv b (startExchange c (.cid :: K) s) :=
  h.call rfl rfl trivial

theorem Running.enterIssueRca (h : Running b .issueRca K s) : ControlInv b (enterIssueRca K s) := h.call rfl rfl trivial

theorem Running.enterSwitchVoltage (h : Running b .switchVoltage K s) : ControlInv b (enterSwitchVoltage K s) := by
  refine .ite (fun _ => h.givesPlain rfl rfl) fun ha => h.call rfl rfl ?_
  simp only [voltageSwitchAllowed, Bool.not_eq_false, Bool.and_eq_true] at ha
  obtain ⟨⟨hcapacity, -⟩, -⟩ := ha
  exact hcapacity

theorem Running.startChecked (h : Running b .checked K s) (c : CmdReg) : ControlInv b (startChecked c K s) :=
  h.call rfl rfl trivial

theorem Running.enterSelectCard (h : Running b .checked K s) (sel : Bool) : ControlInv b (enterSelectCard sel K s) := by
  unfold Machine.enterSelectCard
  dsimp only
  split
  · exact h.call rfl rfl trivial
  · exact h.call rfl rfl trivial

theorem Running.enterGetStatus (h : Running b .getStatus K s) : ControlInv b (enterGetStatus K s) :=
  h.call rfl rfl trivial

theorem Running.enterStopTransmission (h : Running b .stopTransmission K s) : ControlInv b (enterStopTransmission K s) :=
  h.call rfl rfl trivial

theorem Running.enterGoInactive (h : Running b .goInactive K s) : ControlInv b (enterGoInactive K s) :=
  h.call rfl rfl trivial

/-- SetBusWidth is requested directly only. -/
theorem Running.enterSetBusWidth (h : Running b .checked [] s) (width : Nat) : ControlInv b (enterSetBusWidth width [] s) :=
  .ite (fun _ => h.givesPlain rfl rfl) fun _ => (h.push (.widthPrefix width) rfl trivial).enterAppCmdPrefix (by simp)

theorem Running.enterGetCsd (h : Running b .getCsd K s) : ControlInv b (enterGetCsd K s) := h.call rfl rfl trivial

/-- An acquisition (R207): the payload buffer is there for the frame pushed next, or it is as before. -/
theorem Running.acquire {r : Routine} (h : Running b r K s) (n : Nat) : Inside b r K (acquire n s).1 ∧
    ((Machine.acquire n s).2 = false → Running b r K (Machine.acquire n s).1) := by
  refine ⟨h.toInside.keeps (by simp) (by simp) (.inl (by simp)), fun hn => ?_⟩
  refine h.keeps (by simp) (by simp) (.inl (by simp)) ?_
  rw [acquire_result] at hn
  rw [acquire_payload, hn]
  rfl

theorem Running.enterSelectFunction (h : Running b .selectFunction K s) (m : SwitchMode) (g i : Nat) :
    ControlInv b (enterSelectFunction m g i K s) := by
  obtain ⟨hin, hnone⟩ := h.acquire 64
  exact .ite (fun _ => h.givesPlain rfl rfl) fun _ => .ite (fun hn => (hnone hn).givesPlain rfl rfl) fun _ =>
    (hin.push .table hin.length_le trivial).startExchange fun _ => rfl

theorem Running.enterGetScr (h : Running b .getScr K s) : ControlInv b (enterGetScr K s) := by
  obtain ⟨hin, hnone⟩ := h.acquire 8
  exact .ite (fun hn => (hnone hn).givesPlain rfl rfl) fun _ => Running.enterAppCmdPrefix
    ⟨hin.push .scrPrefix (hin.length_le.trans (by decide)) trivial, fun _ => rfl⟩ (Nat.succ_le_succ hin.length_le)

theorem Running.enterNegotiate (h : Running b .negotiate K s) (g i : Nat) : ControlInv b (enterNegotiate g i K s) :=
  (h.push (.checkLength g i) rfl trivial).startChecked _

theorem Running.enterDataCommand (h : Running b .checked K s) (dir : Direction) (n : Nat) (addr : Word) (d : Descriptor) :
    ControlInv b (enterDataCommand dir n addr d K s) := by
  cases dir with
  | read => exact .ite (fun _ => h.startChecked _) fun _ => h.startChecked _
  | write => exact .ite (fun _ => h.startChecked _) fun _ => h.startChecked _

/-- R260: the argument checks put the blocks on the card, their addresses in the argument. -/
theorem blocksInRange_of_checkRange {c : Card} {start count : Nat} (h : checkRange c start count = .well) :
    blocksInRange c start count := by
  unfold checkRange at h
  split_ifs at h with h0 hn ha
  exact ⟨Nat.pos_of_ne_zero h0, not_lt.1 hn, fun hc => not_le.1 fun hl => ha ⟨hc, hl⟩⟩

theorem checkRange_plain (c : Card) (start count : Nat) : Plain (checkRange c start count) := by
  unfold checkRange
  split_ifs <;> rfl

theorem checkArgs_plain (c : Card) (buffer : Option Addr) (start count : Nat) : Plain (checkArgs c buffer start count) := by
  cases buffer with
  | none => rfl
  | some a => exact checkRange_plain c start count

theorem blocksInRange_of_checkArgs {c : Card} {buffer : Option Addr} {start count : Nat}
    (h : checkArgs c buffer start count = .well) : blocksInRange c start count := by
  cases buffer with
  | none => cases h
  | some a => exact blocksInRange_of_checkRange h

theorem Running.enterRwBlocks (h : Running b .rwBlocks K s) (buffer : Option Addr) (start count : Word) (dir : Direction) :
    ControlInv b (enterRwBlocks buffer start count dir K s) :=
  .ite (fun _ => h.endWith _ (checkArgs_plain _ _ _ _).code rfl) fun hw =>
    h.goto rfl ⟨blocksInRange_of_checkArgs (not_not.1 hw), Nat.zero_le _, .inl rfl⟩

theorem Running.enterFormatBlocks (h : Running b .formatBlocks K s) (start count : Word) :
    ControlInv b (enterFormatBlocks start count K s) :=
  .ite (fun _ => h.endWith _ (checkRange_plain _ _ _).code rfl) fun hw =>
    h.goto rfl (blocksInRange_of_checkRange (not_not.1 hw))

theorem Running.enterToNormal (h : Running b .toNormal K s) : ControlInv b (enterToNormal K s) :=
  .ite (fun _ => h.endWith _ plainCode_none rfl) fun _ => (h.push .normalCsd rfl trivial).enterGetCsd

theorem Running.enterDetect (h : Running b .detect K s) : ControlInv b (enterDetect K s) := h.goto rfl (.inl rfl)

theorem Running.enterInitialDevice (h : Running b .initialDevice K s) : ControlInv b (enterInitialDevice K s) :=
  (h.push .initialDetect rfl trivial).enterDetect

theorem Running.enterInactivateDevice (h : Running b .inactivateDevice K s) : ControlInv b (enterInactivateDevice K s) :=
  h.goto rfl trivial

theorem ControlInv.freed (s : State) : ControlInv b (freed s) := .finish _ _ _

theorem Running.enterFreeDevice (h : Running b .freeDevice K s) : ControlInv b (enterFreeDevice K s) :=
  .ite (fun _ => .freed s) fun _ => (h.push .freeDevice rfl trivial).enterInactivateDevice

end

section

variable {b : Routine} {K : List Frame} {s : State} {x : Result}

/-! ## What a controller does when the one it called has returned -/

theorem Running.goIdleAnswered (h : Running b .goIdle K s) (hx : Plain x) : ControlInv b (goIdleAnswered x K s) :=
  h.afterCall rfl hx fun _ => (h.setMode _ rfl).writesCard rfl rfl rfl rfl

theorem Running.ifCondAnswered {k : Nat} (h : Running b .sendIfCond K s) (hx : Plain x)
    (hk : 1 ≤ k ∧ k ≤ s.params.cmd8MaxAttempts) : ControlInv b (ifCondAnswered k x K s) := by
  refine .ite (fun _ => h.givesPlain rfl rfl) fun _ => h.goto rfl ⟨Nat.le_add_left 1 k, Nat.succ_le_succ hk.2, ?_⟩
  split
  · exact isFailure_iff.2 ⟨nofun, rfl⟩
  next hw => exact isFailure_iff.2 ⟨hw, hx⟩

theorem Running.appPrefixAnswered (h : Running b .appCmdPrefix K s) (hx : Plain x) :
    ControlInv b (appPrefixAnswered x K s) :=
  h.afterCall rfl hx fun _ => .ite (fun _ => h.givesPlain rfl rfl) fun _ =>
      .ite (fun _ => h.givesPlain rfl rfl) fun _ => h.givesPlain rfl rfl

theorem Running.opCondPrefixAnswered (h : Running b .sendOpCond K s) (hx : Plain x) (a : Word) :
    ControlInv b (opCondPrefixAnswered a x K s) := h.afterCall rfl hx fun _ => h.call rfl rfl trivial

theorem Running.opCondAnswered (h : Running b .sendOpCond K s) (hx : Plain x) : ControlInv b (opCondAnswered x K s) :=
  h.afterCall rfl hx fun _ => .ite (fun _ => h.giveBack ⟨rfl, fun _ => rfl, nofun⟩) fun _ =>
      h.writesCard rfl rfl rfl rfl

theorem Running.cidAnswered (h : Running b .readCid K s) (hx : Plain x) : ControlInv b (cidAnswered x K s) :=
  h.afterCall rfl hx fun _ => h.writesCard rfl rfl rfl rfl

theorem Running.rcaAnswered (h : Running b .issueRca K s) (hx : Plain x) : ControlInv b (rcaAnswered x K s) :=
  h.afterCall rfl hx fun _ => .ite (fun _ => h.givesPlain rfl rfl) fun _ => h.writesCard rfl rfl rfl rfl

theorem Running.voltageAnswered (h : Running b .switchVoltage K s) (hx : Plain x) (hhost : s.host.supports1V8 = true) :
    ControlInv b (voltageAnswered x K s) :=
  h.afterCall rfl hx fun _ => h.afterCall rfl (plain_r1Code s) fun _ => h.goto rfl hhost

theorem Running.csdAnswered (h : Running b .getCsd K s) (hx : Plain x) : ControlInv b (csdAnswered x K s) := by
  refine h.afterCall rfl hx fun _ => ?_
  dsimp only
  split
  · exact h.givesPlain rfl rfl
  · exact h.writesCard rfl rfl rfl rfl

theorem Inside.scrPrefixAnswered (h : Inside b .getScr K s) (hx : Plain x) : ControlInv b (scrPrefixAnswered x K s) :=
  .ite (fun _ => h.releaseGiveBack hx rfl) fun _ =>
    (h.push .scr (h.length_le.trans (by decide)) trivial).startExchange fun _ => rfl

/-- A payload register read after its exchange: release, or on to its data phase. -/
theorem Inside.payloadAnswered {r : Routine} {p : Point} (h : Inside b r K s) (hx : Plain x) (hr : p.routine b K = r)
    (hop : r.isOperation = false) (hp : p = .scrData ∨ p = .tableData) :
    ControlInv b (if x ≠ .well then Machine.releaseGiveBack x K s
      else if r1Ok s.resp0 = false then Machine.releaseGiveBack .anyError K s else s.goto p K) := by
  refine .ite (fun _ => h.releaseGiveBack hx hop) fun _ => .ite (fun _ => h.releaseGiveBack rfl hop) fun _ => ?_
  subst hr
  obtain rfl | rfl := hp
  · exact h.goto (fun _ => rfl) trivial trivial nofun
  · exact h.goto (fun _ => rfl) trivial trivial nofun

theorem Running.widthPrefixAnswered (h : Running b .checked K s) (hx : Plain x) (width : Nat) :
    ControlInv b (widthPrefixAnswered width x K s) := h.afterCall rfl hx fun _ => h.startChecked _

theorem Running.statusAnswered (h : Running b .getStatus K s) (hx : Plain x) : ControlInv b (statusAnswered x K s) :=
  h.afterCall rfl hx fun _ => .ite (fun _ => h.givesPlain rfl rfl) fun _ =>
    .ite (fun _ => h.giveBack ⟨rfl, nofun, fun _ => rfl⟩) fun _ => h.givesPlain rfl rfl

theorem Running.stopAnswered (h : Running b .stopTransmission K s) : ControlInv b (stopAnswered x K s) :=
  .ite (fun _ => h.givesPlain rfl rfl) fun _ => h.givesPlain rfl rfl

theorem Running.inactiveAnswered (h : Running b .goInactive K s) (hx : Plain x) : ControlInv b (inactiveAnswered x K s) :=
  h.afterCall rfl hx fun _ => (h.setMode _ rfl).givesPlain rfl rfl

theorem Running.checkedAnswered (h : Running b .checked K s) (hx : Plain x) : ControlInv b (checkedAnswered x K s) :=
  h.afterCall rfl hx fun _ => h.givesPlain (plain_r1Code s) rfl

theorem Running.sentAnswered (h : Running b .checked K s) (hx : Plain x) : ControlInv b (sentAnswered x K s) :=
  h.givesPlain hx rfl

/-! ## The negotiator (R240) -/

theorem Running.checkLengthAnswered (h : Running b .negotiate K s) (hx : Plain x) (g i : Nat) :
    ControlInv b (checkLengthAnswered g i x K s) :=
  h.afterCall rfl hx fun _ => (h.push (.checkTable g i) rfl trivial).enterSelectFunction _ _ _

theorem Running.checkTableAnswered (h : Running b .negotiate K s) (hx : Plain x) (g i : Nat) :
    ControlInv b (checkTableAnswered g i x K s) :=
  h.afterCall rfl hx fun _ => .ite (fun _ => h.givesPlain rfl rfl) fun _ =>
      (h.push (.switchLength g i) rfl trivial).startChecked _

theorem Running.switchLengthAnswered (h : Running b .negotiate K s) (hx : Plain x) (g i : Nat) :
    ControlInv b (switchLengthAnswered g i x K s) :=
  h.afterCall rfl hx fun _ => (h.push (.switchTable g i) rfl trivial).enterSelectFunction _ _ _

theorem Running.switchTableAnswered (h : Running b .negotiate K s) (hx : Plain x) (g i : Nat) :
    ControlInv b (switchTableAnswered g i x K s) :=
  h.afterCall rfl hx fun _ => .ite (fun _ => h.givesPlain rfl rfl) fun _ => h.givesPlain rfl rfl

/-! ## The block engine (R262 to R268) -/

/-- R262, R268: after a chunk the rest of the blocks are still on the card. -/
theorem blocksInRange_advance {c : Card} {block remaining n : Nat} (h : blocksInRange c block remaining) (hn : n < remaining) :
    blocksInRange c (block + n) (remaining - n) := by
  obtain ⟨hpos, hcount, haddress⟩ := h
  refine ⟨by omega, by omega, fun hc => ?_⟩
  rw [show block + n + (remaining - n) - 1 = block + remaining - 1 by omega]
  exact haddress hc

theorem Running.startAttempt {cur : Cursor} (h : Running b .rwBlocks K s) (hcur : cursorInBounds s cur) :
    ControlInv b (startAttempt cur K s) :=
  (h.push (.commanded cur) rfl hcur).enterDataCommand _ _ _ _

/-- `wait_ready` (R263) consumes `NotReady`. -/
theorem Running.polledAnswered {cur : Cursor} (h : Running b .rwBlocks K s) (hcur : cursorInBounds s cur)
    (hx : x ≠ .retry) : ControlInv b (polledAnswered cur x K s) := by
  unfold Machine.polledAnswered
  split
  · exact h.startAttempt hcur
  · obtain ⟨hblocks, hretries, -⟩ := hcur
    refine .ite (fun _ => h.endWith _ (Plain.code rfl) rfl) fun hlimit => h.goto rfl ⟨hblocks, hretries, .inr ?_⟩
    simpa using hlimit
  next hready => exact h.endWith _ (Plain.code (plain_iff.2 ⟨hx, hready⟩)) rfl

theorem dataFailCode_plain (dir : Direction) : Plain (dataFailCode dir) := by
  cases dir <;> rfl

theorem Running.attemptEnds {cur : Cursor} (h : Running b .rwBlocks K s) (hcur : cursorInBounds s cur) (hx : Plain x)
    (received : Bool) : ControlInv b (attemptEnds cur received x K s) := by
  obtain ⟨hblocks, hretry, -⟩ := hcur
  refine .ite (fun _ => ?_) fun _ => .ite (fun _ => h.endWith _ hx.code rfl) fun _ =>
      .ite (fun _ => h.endWith _ (Plain.code rfl) rfl) fun hn => ?_
  · exact .ite (fun hr => h.goto rfl ⟨hblocks, hr, .inl rfl⟩) fun _ => h.endWith _ (dataFailCode_plain _).code rfl
  · exact h.goto rfl ⟨blocksInRange_advance hblocks (not_le.1 hn), Nat.zero_le _, .inl rfl⟩

theorem Running.commandedAnswered {cur : Cursor} (h : Running b .rwBlocks K s) (hcur : cursorInBounds s cur) (hx : Plain x) :
    ControlInv b (commandedAnswered cur x K s) := .ite (fun _ => h.goto rfl hcur) fun _ => h.endWith _ hx.code rfl

theorem Running.eraseStartAnswered {block remaining : Nat} (h : Running b .formatBlocks K s)
    (hblocks : blocksInRange s.card block remaining) (hx : Plain x) :
    ControlInv b (eraseStartAnswered block remaining x K s) :=
  .ite (fun _ => h.endWith _ hx.code rfl) fun _ => (h.push (.eraseEnd block remaining) rfl hblocks).startChecked _

theorem Running.eraseEndAnswered {block remaining : Nat} (h : Running b .formatBlocks K s)
    (hblocks : blocksInRange s.card block remaining) (hx : Plain x) :
    ControlInv b (eraseEndAnswered block remaining x K s) :=
  .ite (fun _ => h.endWith _ hx.code rfl) fun _ => (h.push (.erased block remaining) rfl hblocks).startChecked _

theorem Running.erasedAnswered {block remaining : Nat} (h : Running b .formatBlocks K s)
    (hblocks : blocksInRange s.card block remaining) (hx : Plain x) :
    ControlInv b (erasedAnswered block remaining x K s) :=
  .ite (fun _ => h.endWith _ hx.code rfl) fun _ => .ite (fun _ => h.endWith _ (Plain.code rfl) rfl) fun hn =>
    h.goto rfl (blocksInRange_advance hblocks (not_le.1 hn))

/-! ## The lifecycle (R291 to R303) -/

/-- `return false` of `detect` (R291): the result is no sentinel. -/
theorem Running.detectStep {next : State → State} (h : Running b .detect K s) (hx : Plain x)
    (hnext : ControlInv b (next s)) : ControlInv b (detectStep x K s next) :=
  .ite (fun _ => hnext) fun _ => h.endWith _ hx.code rfl

theorem Running.normalFails (h : Running b .toNormal K s) (hx : isFailure x) : ControlInv b (normalFails x K s) :=
  (h.push (.normalDeselect x) rfl hx).enterSelectCard false

theorem Running.normalStep {next : State → State} (h : Running b .toNormal K s) (hx : Plain x)
    (hnext : ControlInv b (next s)) : ControlInv b (normalStep x K s next) :=
  .ite (fun _ => hnext) fun hw => h.normalFails (isFailure_iff.2 ⟨hw, hx⟩)

theorem Running.normalTolerates {next : State → State} (h : Running b .toNormal K s) (hx : Plain x)
    (hnext : ControlInv b (next s)) : ControlInv b (normalTolerates x K s next) :=
  .ite (fun _ => hnext) fun ht => h.normalFails (isFailure_iff.2 ⟨by rintro rfl; exact ht rfl, hx⟩)

/-- The ACMD41 loop (R293) consumes `Retry`. -/
theorem Running.detectOpCondAnswered {v2 : Bool} {k : Nat} (h : Running b .detect K s)
    (hk : 1 ≤ k ∧ k ≤ s.params.acmd41LoopBudget) (hx : x ≠ .notReady) :
    ControlInv b (detectOpCondAnswered v2 k x K s) := by
  unfold Machine.detectOpCondAnswered
  split
  · exact .ite (fun _ => ((h.setMode _ rfl).push .detectVoltage rfl trivial).enterSwitchVoltage) fun _ =>
      ((h.setMode _ rfl).push .detectCid rfl trivial).enterReadCid _
  · exact h.goto rfl ⟨Nat.le_add_left 1 k, Nat.succ_le_succ hk.2⟩
  next hretry => exact h.endWith _ (Plain.code (plain_iff.2 ⟨hretry, hx⟩)) rfl

theorem Running.detectIfCondAnswered (h : Running b .detect K s) : ControlInv b (detectIfCondAnswered x K s) :=
  h.goto rfl ⟨le_rfl, Nat.le_add_left _ _⟩

theorem Running.detectCidAnswered (h : Running b .detect K s) (hx : Plain x) : ControlInv b (detectCidAnswered x K s) :=
  h.detectStep hx (((h.setMode _ rfl).push .detectRca rfl trivial).enterIssueRca)

theorem Running.detectRcaAnswered (h : Running b .detect K s) (hx : Plain x) : ControlInv b (detectRcaAnswered x K s) :=
  h.detectStep hx ((h.setMode _ rfl).endWith _ (Plain.code rfl) rfl)

theorem Running.normalScrAnswered (h : Running b .toNormal K s) (hx : Plain x) : ControlInv b (normalScrAnswered x K s) :=
  h.normalStep hx (.ite (fun _ => (h.push .normalSpeed rfl trivial).enterNegotiate _ _) fun _ => h.goto rfl trivial)

theorem Running.normalSpeedAnswered (h : Running b .toNormal K s) (hx : Plain x) :
    ControlInv b (normalSpeedAnswered x K s) := h.normalTolerates hx (h.goto rfl trivial)

theorem fixBlockSize_allocated (c : Card) : c.fixBlockSize.allocated = c.allocated := by
  unfold Card.fixBlockSize; split <;> rfl

theorem Running.normalLengthAnswered (h : Running b .toNormal K s) (hx : Plain x) :
    ControlInv b (normalLengthAnswered x K s) :=
  h.normalStep hx (((h.setCard _ (fixBlockSize_allocated _) rfl).setMode _ rfl).endWith _ (Plain.code rfl) rfl)

theorem Running.initialDetectAnswered {code : Option Result} (h : Running b .initialDevice K s) (ok : Bool)
    (hcode : PlainCode code) : ControlInv b (initialDetectAnswered ok code K s) :=
  .ite (fun _ => (h.push .initialNormal rfl trivial).enterToNormal) fun _ => h.endWith _ hcode rfl

theorem Running.normalDeselectAnswered (h : Running b .toNormal K s) (hx : Plain x) :
    ControlInv b (normalDeselectAnswered x K s) := by
  have ht : Running b .toNormal K (if s.card.inMode .transfer then s.setMode .standBy else s) := by
    split
    · exact h.setMode _ rfl
    · exact h
  exact ht.endWith _ hx.code rfl

/-! ## Whatever waits goes on -/

theorem Running.answer {f : Frame} (h : Running b f.calls (f :: K) s) (hx : Returns f.calls x) :
    ControlInv b (answer f x K s) := by
  have hin := h.toInside.pop
  have hf := h.toInside.frame
  cases f with
  | scrPrefix => exact Inside.scrPrefixAnswered hin (hx.plain rfl)
  | scr => exact Inside.payloadAnswered hin (hx.plain rfl) rfl rfl (.inl rfl)
  | table => exact Inside.payloadAnswered hin (hx.plain rfl) rfl rfl (.inr rfl)
  | goIdle => exact Running.goIdleAnswered (h.pop rfl) (hx.plain rfl)
  | ifCond k => exact Running.ifCondAnswered (h.pop rfl) (hx.plain rfl) hf
  | appPrefix => exact Running.appPrefixAnswered (h.pop rfl) (hx.plain rfl)
  | opCondPrefix a => exact Running.opCondPrefixAnswered (h.pop rfl) (hx.plain rfl) a
  | opCond => exact Running.opCondAnswered (h.pop rfl) (hx.plain rfl)
  | cid => exact Running.cidAnswered (h.pop rfl) (hx.plain rfl)
  | rca => exact Running.rcaAnswered (h.pop rfl) (hx.plain rfl)
  | voltage => exact Running.voltageAnswered (h.pop rfl) (hx.plain rfl) hf
  | csd => exact Running.csdAnswered (h.pop rfl) (hx.plain rfl)
  | widthPrefix width => exact Running.widthPrefixAnswered (h.pop rfl) (hx.plain rfl) width
  | status => exact Running.statusAnswered (h.pop rfl) (hx.plain rfl)
  | stop => exact Running.stopAnswered (h.pop rfl)
  | inactive => exact Running.inactiveAnswered (h.pop rfl) (hx.plain rfl)
  | checked => exact Running.checkedAnswered (h.pop rfl) (hx.plain rfl)
  | sent => exact Running.sentAnswered (h.pop rfl) (hx.plain rfl)
  | checkLength g i => exact Running.checkLengthAnswered (h.pop rfl) (hx.plain rfl) g i
  | checkTable g i => exact Running.checkTableAnswered (h.pop rfl) (hx.plain rfl) g i
  | switchLength g i => exact Running.switchLengthAnswered (h.pop rfl) (hx.plain rfl) g i
  | switchTable g i => exact Running.switchTableAnswered (h.pop rfl) (hx.plain rfl) g i
  | polled cur => exact Running.polledAnswered (h.pop rfl) hf (mt hx.2.1 nofun)
  | commanded cur => exact Running.commandedAnswered (h.pop rfl) hf (hx.plain rfl)
  | stopped cur received => exact Running.attemptEnds (h.pop rfl) hf (hx.plain rfl) received
  | eraseStart block remaining => exact Running.eraseStartAnswered (h.pop rfl) hf (hx.plain rfl)
  | eraseEnd block remaining => exact Running.eraseEndAnswered (h.pop rfl) hf (hx.plain rfl)
  | erased block remaining => exact Running.erasedAnswered (h.pop rfl) hf (hx.plain rfl)
  | detectIdle =>
    exact Running.detectStep (h.pop rfl) (hx.plain rfl) (Running.enterSendIfCond ((h.pop rfl).push .detectIfCond rfl trivial))
  | detectIfCond => exact Running.detectIfCondAnswered (h.pop rfl)
  | detectOpCond v2 k => exact Running.detectOpCondAnswered (h.pop rfl) hf (mt hx.2.2 nofun)
  | detectVoltage =>
    exact Running.detectStep (h.pop rfl) (hx.plain rfl) (Running.enterReadCid ((h.pop rfl).push .detectCid rfl trivial) _)
  | detectCid => exact Running.detectCidAnswered (h.pop rfl) (hx.plain rfl)
  | detectRca => exact Running.detectRcaAnswered (h.pop rfl) (hx.plain rfl)
  | normalCsd =>
    exact Running.normalStep (h.pop rfl) (hx.plain rfl)
      (Running.enterSelectCard ((h.pop rfl).push .normalSelect rfl trivial) true)
  | normalSelect =>
    exact Running.normalStep (h.pop rfl) (hx.plain rfl) (Running.enterGetScr ((h.pop rfl).push .normalScr rfl trivial))
  | normalScr => exact Running.normalScrAnswered (h.pop rfl) (hx.plain rfl)
  | normalSpeed => exact Running.normalSpeedAnswered (h.pop rfl) (hx.plain rfl)
  | normalDrive =>
    exact Running.normalTolerates (h.pop rfl) (hx.plain rfl)
      (Running.enterNegotiate ((h.pop rfl).push .normalPower rfl trivial) _ _)
  | normalPower =>
    exact Running.normalTolerates (h.pop rfl) (hx.plain rfl)
      (Running.startChecked ((h.pop rfl).push .normalLength rfl trivial) _)
  | normalLength => exact Running.normalLengthAnswered (h.pop rfl) (hx.plain rfl)
  | normalDeselect failure => exact Running.normalDeselectAnswered (h.pop rfl) (isFailure_iff.1 hf).2
  | teardownDeselect => exact ((h.pop rfl).push .teardownIdle rfl trivial).enterGoIdle
  | teardownIdle => exact Running.endWith (r := .inactivateDevice) ((h.pop rfl).setMode _ rfl) _ (Plain.code rfl) rfl
  | initialDetect => exact Running.initialDetectAnswered (h.pop rfl) _ (hx.plain rfl).code
  | initialNormal => exact Running.endWith (r := .initialDevice) (h.pop rfl) _ (hx.plain rfl).code rfl
  | freeDevice => exact .freed s

end

section

variable {b : Routine} {K : List Frame} {s : State}

/-! ## The host-port calls -/

/-- A call that writes neither the Card nor the payload buffer. -/
theorem Running.afterHostCall {r : Routine} {t : State} (h : Running b r K s) (host : t.host = s.host)
    (params : t.params = s.params) (card : t.card = s.card) (payload : t.payload = s.payload) : Running b r K t :=
  h.keeps host params (.inl card) payload

/-- The data phase of a payload register (R189, R199): its Card write, and the release. -/
theorem Inside.payloadDataCall {r : Routine} (h : Inside b r K s) (d : Descriptor) (write : State → Card)
    (hwrite : ∀ t, (write t).allocated = t.card.allocated) (hr : r.servesBlocks = false) (hop : r.isOperation = false) :
    ControlInv b (if (hostRecvData d s).2 ≠ .well then Machine.releaseGiveBack (hostRecvData d s).2 K (hostRecvData d s).1
      else Machine.releaseGiveBack .well K ((hostRecvData d s).1.setCard (write (hostRecvData d s).1))) := by
  have ht : Inside b r K (hostRecvData d s).1 := h.keeps (by simp) (by simp) (.inl (by simp))
  have hu : Inside b r K ((hostRecvData d s).1.setCard (write (hostRecvData d s).1)) :=
    ht.keeps rfl rfl (.inr ⟨hr, hwrite _⟩)
  exact .ite (fun _ => ht.releaseGiveBack (plain_hostCode _) hop) fun _ => hu.releaseGiveBack rfl hop

/-- The data phase of a block operation reads into system memory, never into the payload buffer (R264, R265). -/
theorem dataPhase_payload (s u : State) (dir : Direction) (p : Addr) (n : Nat) :
    (dataPhase dir (blockDescriptor u dir p n) s).1.payload = s.payload := by
  cases dir <;> rfl

theorem Running.blockDataCall {cur : Cursor} (h : Running b .rwBlocks K s) (hcur : cursorInBounds s cur) :
    ControlInv b (blockDataCall cur K s) := by
  have ht : Running b .rwBlocks K (dataPhase cur.dir (blockDescriptor s cur.dir cur.buffer (cur.blocks s)) s).1 :=
    h.afterHostCall (by simp) (by simp) (by simp) (dataPhase_payload _ _ _ _ _)
  have hcur' : cursorInBounds (dataPhase cur.dir (blockDescriptor s cur.dir cur.buffer (cur.blocks s)) s).1 cur :=
    frameInBounds_congr (f := .commanded cur) (by simp) (by simp) (.inl (by simp)) hcur
  exact .ite (fun _ => Running.enterStopTransmission (ht.push (.stopped cur _) rfl hcur')) fun _ =>
    ht.attemptEnds (x := .well) hcur' rfl _

theorem Running.addFramingCall (h : Running b .exchange K s) (hf : s.host.framing = .hostOverride) :
    ControlInv b (addFramingCall K s) := by
  have ht : Running b .exchange K (hostAddFraming s) := h.afterHostCall rfl rfl rfl rfl
  exact Inside.goto (p := .sendCommand) ht.toInside ht.payload trivial trivial
    fun hc => absurd (hc.symm.trans hf) nofun

theorem Running.sendCommandCall (h : Running b .exchange K s) : ControlInv b (sendCommandCall K s) := by
  have ht : Running b .exchange K (hostSendCommand s).1 := h.afterHostCall rfl rfl rfl rfl
  exact .ite (fun _ => ht.goto rfl trivial) fun _ => ht.givesPlain (plain_hostCode _) rfl

theorem Running.recvResponseCall (h : Running b .exchange K s) : ControlInv b (recvResponseCall K s) :=
  (h.afterHostCall (t := hostRecvResponse s) rfl rfl rfl rfl).givesPlain rfl rfl

theorem Running.drainCall (h : Running b .goIdle K s) : ControlInv b (drainCall K s) :=
  (h.afterHostCall (t := hostRecvResponse s) rfl rfl rfl rfl).call rfl rfl trivial

theorem Running.voltageCall (h : Running b .switchVoltage K s) : ControlInv b (voltageCall K s) := by
  have ht : Running b .switchVoltage K (hostSwitchVoltage s).1 := h.afterHostCall rfl rfl rfl rfl
  unfold Machine.voltageCall
  exact ht.afterCall rfl (plain_hostCode _) fun _ => ht.writesCard rfl rfl rfl rfl

theorem Running.insertionCall (h : Running b .detect K s) (k : Nat) : ControlInv b (insertionCall k K s) := by
  have ht : Running b .detect K (hostIsCardInserted s).1 := h.afterHostCall rfl rfl rfl rfl
  refine .ite (fun _ => ht.goto rfl trivial) fun _ =>
      .ite (fun _ => ht.endWith _ (Plain.code rfl) rfl) fun hlimit => ht.goto rfl (.inr ?_)
  simpa using hlimit

theorem Running.identificationBusCall (h : Running b .detect K s) : ControlInv b (identificationBusCall K s) :=
  (h.keeps (t := hostSetBusWidth .one s) rfl rfl (.inr ⟨rfl, rfl⟩) rfl).goto rfl trivial

theorem Running.identificationClockCall (h : Running b .detect K s) : ControlInv b (identificationClockCall K s) :=
  (h.keeps (t := hostSetClockFrequency .f400K s) rfl rfl (.inr ⟨rfl, rfl⟩) rfl).goto rfl trivial

theorem Running.activationCall (h : Running b .detect K s) : ControlInv b (activationCall K s) := by
  have ht : Running b .detect K (hostActivateCard s).1 := h.afterHostCall rfl rfl rfl rfl
  exact .ite (fun _ => ht.endWith _ plainCode_none rfl) fun _ => Running.enterGoIdle (ht.push .detectIdle rfl trivial)

theorem Running.transferClockCall (h : Running b .toNormal K s) : ControlInv b (transferClockCall K s) := by
  have ht : Running b .toNormal K (hostSetClockFrequency .f25M s) := h.keeps rfl rfl (.inr ⟨rfl, rfl⟩) rfl
  exact .ite (fun _ => Running.enterNegotiate (ht.push .normalDrive rfl trivial) _ _) fun _ =>
      Running.startChecked (ht.push .normalLength rfl trivial) _

theorem Running.teardownBusCall (h : Running b .inactivateDevice K s) : ControlInv b (teardownBusCall K s) :=
  have ht : Running b .inactivateDevice K (hostSetBusWidth .one s) := h.keeps rfl rfl (.inr ⟨rfl, rfl⟩) rfl
  (ht.push .teardownDeselect rfl trivial).enterSelectCard false

/-! ## The heads of the loops -/

theorem Running.ifCondAttempt {k : Nat} {last : Result} (h : Running b .sendIfCond K s)
    (hk : pointInBounds s (.ifCondAttempt k last)) : ControlInv b (ifCondAttempt k last K s) :=
  let ⟨hfirst, _, hlast⟩ := hk
  .ite (fun _ => h.givesPlain (isFailure_iff.1 hlast).2 rfl) fun hn => h.call rfl rfl ⟨hfirst, not_lt.1 hn⟩

theorem Running.opCondIteration {v2 : Bool} {k : Nat} (h : Running b .detect K s)
    (hk : pointInBounds s (.opCondIteration v2 k)) : ControlInv b (opCondIteration v2 k K s) :=
  .ite (fun _ => h.endWith _ (Plain.code rfl) rfl) fun hn =>
    Running.enterSendOpCond (h.push (.detectOpCond v2 k) rfl ⟨hk.1, not_lt.1 hn⟩) _

theorem Running.statusPoll {cur : Cursor} (h : Running b .rwBlocks K s) (hcur : cursorInBounds s cur) :
    ControlInv b (statusPoll cur K s) := Running.enterGetStatus (h.push (.polled cur) rfl hcur)

theorem Running.eraseChunk {block remaining : Nat} (h : Running b .formatBlocks K s)
    (hblocks : blocksInRange s.card block remaining) : ControlInv b (eraseChunk block remaining K s) :=
  Running.startChecked (h.push (.eraseStart block remaining) rfl hblocks) _

/-! ## Returns -/

theorem Running.controllerReturns {r : Routine} {x : Result} (h : Running b r K s) (hx : Returns r x) :
    ControlInv b (controllerReturns x K s) := by
  cases K with
  | nil => exact .finish _ _ _
  | cons f rest =>
    obtain ⟨rfl, -⟩ := h.nested
    exact h.answer hx

theorem Running.operationReturns {r : Routine} {code : Option Result} (h : Running b r K s) (ok : Bool)
    (hcode : PlainCode code) : ControlInv b (operationReturns ok code K s) := by
  unfold Machine.operationReturns
  split
  · exact Running.initialDetectAnswered (h.pop rfl) ok hcode
  · exact Running.endWith (r := .initialDevice) (h.pop rfl) ok hcode rfl
  · exact .freed s
  · exact .finish _ _ _

/-! ## The step at a position -/

/-- What the invariant says of the routine at a position. -/
theorem ControlInv.inside {p : Point} (h : ControlInv b s) (hc : s.control = .running p K) :
    Inside b (p.routine b K) K s ∧ returnsLegally b K p ∧ pointInBounds s p := by
  obtain ⟨-, -, hallocated, hnesting, hbounds, -⟩ := h
  rw [hc] at hallocated hnesting
  unfold controlInBounds at hbounds
  rw [hc] at hbounds
  exact ⟨⟨hnesting.1, hnesting.2.2, hbounds.2, hallocated nofun⟩, hnesting.2.1, hbounds.1⟩

/-- At a position other than a payload register's data phase the running routine holds no payload buffer. -/
theorem ControlInv.running {p : Point} (h : ControlInv b s) (hc : s.control = .running p K) (hscr : p ≠ .scrData)
    (htable : p ≠ .tableData) : Running b (p.routine b K) K s := by
  refine ⟨(h.inside hc).1, fun hp => ?_⟩
  have hholds := h.1 hp
  rw [hc] at hholds
  cases p
  case scrData => exact absurd rfl hscr
  case tableData => exact absurd rfl htable
  all_goals exact hholds

theorem ControlInv.advance {p : Point} (h : ControlInv b s) (hc : s.control = .running p K) :
    ControlInv b (advance p K s) := by
  obtain ⟨hin, hreturn, hp⟩ := h.inside hc
  have hrun := h.running hc
  cases p with
  | scrData => exact Inside.payloadDataCall hin _ (fun t => t.card.withScr t.payloadBytes) (fun _ => rfl) rfl rfl
  | tableData =>
    exact Inside.payloadDataCall hin _ (fun t => t.card.withSwitchStatus t.payloadBytes) (fun _ => rfl) rfl rfl
  | addFraming => exact Running.addFramingCall (hrun nofun nofun) hp
  | sendCommand => exact Running.sendCommandCall (hrun nofun nofun)
  | recvResponse => exact Running.recvResponseCall (hrun nofun nofun)
  | drain => exact Running.drainCall (hrun nofun nofun)
  | voltage => exact Running.voltageCall (hrun nofun nofun)
  | insertion k => exact Running.insertionCall (hrun nofun nofun) k
  | identificationBus => exact Running.identificationBusCall (hrun nofun nofun)
  | identificationClock => exact Running.identificationClockCall (hrun nofun nofun)
  | activation => exact Running.activationCall (hrun nofun nofun)
  | transferClock => exact Running.transferClockCall (hrun nofun nofun)
  | teardownBus => exact Running.teardownBusCall (hrun nofun nofun)
  | blockData cur => exact Running.blockDataCall (hrun nofun nofun) hp
  | ifCondAttempt k last => exact Running.ifCondAttempt (hrun nofun nofun) hp
  | opCondIteration v2 k => exact Running.opCondIteration (hrun nofun nofun) hp
  | statusPoll cur => exact Running.statusPoll (hrun nofun nofun) hp
  | eraseChunk block remaining => exact Running.eraseChunk (hrun nofun nofun) hp
  | returned r => exact Running.controllerReturns (hrun nofun nofun) hreturn
  | ended ok code => exact Running.operationReturns (hrun nofun nofun) ok hreturn.2

/-! ## Requests -/

/-- A request other than `allocate_device` ends at once or enters its pseudocode. -/
theorem runOperation_controlInv {enter : List Frame → State → State} {t : State}
    (henter : Running b b [] s.begin → ControlInv b (enter [] s.begin)) (h : runOperation enter s = .next t) :
    ControlInv b t := by
  rcases runOperation_cases enter s with ⟨-, he⟩ | ⟨-, -, he⟩ | ⟨-, ha, he⟩
  · cases he ▸ h
  · cases he ▸ h
    exact .finish _ _ _
  · cases he ▸ h
    exact henter ⟨⟨rfl, Nat.zero_le _, nofun, ha⟩, nofun⟩

theorem allocateDevice_controlInv (s : State) : ControlInv b (allocateDevice s) :=
  .ite (fun _ => .finish _ _ _) fun _ => .ite (fun _ => .finish _ _ _) fun _ => .ite (fun _ => .finish _ _ _) fun _ =>
    .finish _ _ _

/-- A request begins a run of its routine. -/
theorem exec_controlInv {i : Instr} {t : State} (hi : routineOf i = some b) (h : exec i s = .next t) : ControlInv b t := by
  cases i <;> cases hi
  case cmd0 => exact runOperation_controlInv Running.enterGoIdle h
  case cmd2 => exact runOperation_controlInv (fun hr => hr.enterReadCid _) h
  case cmd3 => exact runOperation_controlInv Running.enterIssueRca h
  case cmd6 m g i => exact runOperation_controlInv (fun hr => hr.enterSelectFunction m g i) h
  case cmd7 sel => exact runOperation_controlInv (fun hr => hr.enterSelectCard sel) h
  case cmd8 => exact runOperation_controlInv Running.enterSendIfCond h
  case cmd9 => exact runOperation_controlInv Running.enterGetCsd h
  case cmd10 => exact runOperation_controlInv (fun hr => hr.enterReadCid _) h
  case cmd11 => exact runOperation_controlInv Running.enterSwitchVoltage h
  case cmd12 => exact runOperation_controlInv Running.enterStopTransmission h
  case cmd13 => exact runOperation_controlInv Running.enterGetStatus h
  case cmd15 => exact runOperation_controlInv Running.enterGoInactive h
  case cmd16 | cmd17 | cmd18 | cmd24 | cmd25 | cmd32 | cmd33 | cmd38 =>
    exact runOperation_controlInv (fun hr => hr.startChecked _) h
  case cmd55 => exact runOperation_controlInv (fun hr => hr.enterAppCmdPrefix (Nat.zero_le _)) h
  case acmd6 width => exact runOperation_controlInv (fun hr => hr.enterSetBusWidth width) h
  case acmd41 a => exact runOperation_controlInv (fun hr => hr.enterSendOpCond a) h
  case acmd51 => exact runOperation_controlInv Running.enterGetScr h
  case freeDevice => exact runOperation_controlInv Running.enterFreeDevice h
  case initialDevice => exact runOperation_controlInv Running.enterInitialDevice h
  case inactivateDevice => exact runOperation_controlInv Running.enterInactivateDevice h
  case detect => exact runOperation_controlInv Running.enterDetect h
  case toNormal => exact runOperation_controlInv Running.enterToNormal h
  case rwBlocks buffer start count dir =>
    exact runOperation_controlInv (fun hr => hr.enterRwBlocks buffer start count dir) h
  case formatBlocks start count => exact runOperation_controlInv (fun hr => hr.enterFormatBlocks start count) h

/-- The only request that runs no routine and is not refused is `allocate_device`. -/
theorem exec_none {i : Instr} {t : State} (hi : routineOf i = none) (h : exec i s = .next t) : i = .allocateDevice := by
  cases i <;> cases hi
  case allocateDevice => rfl
  case reservedOp op => cases h

/-- `allocate_device` is over at once. -/
theorem execAllocateDevice_controlInv {t : State} (h : exec .allocateDevice s = .next t) : ControlInv b t := by
  simp only [exec, execAllocateDevice] at h
  split at h <;> cases h
  exact allocateDevice_controlInv s.begin

end

end Sys2Proof.Machine

/-! What a step writes in the Card (10_state.md R21 to R35): the lines that write it, each with what it writes, and that no other
line changes the Card. -/

namespace Sys2Proof.Machine

/-- The lines of pseudocode that write the Card: the control point, the Card before the line and the Card after it. -/
inductive CardWrite (c : Card) : Control → Card → Prop where
  | goIdle (K : List Frame) :
    CardWrite c (.running (.returned .well) (.goIdle :: K)) { c with mode := ModeName.idle.bits, rca := 0#16 }
  | opCond (K : List Frame) (w : Word) (h : ocrPoweredUp w = true) :
    CardWrite c (.running (.returned .well) (.opCond :: K)) { c with ocr := w }
  | cid (K : List Frame) (reg : Reg128) :
    CardWrite c (.running (.returned .well) (.cid :: K)) { c with cid := reg, cidValid := true }
  | rca (K : List Frame) (a : BitVec 16) :
    CardWrite c (.running (.returned .well) (.rca :: K)) { c with rca := a }
  | voltage (K : List Frame) : CardWrite c (.running .voltage K) { c with voltage := 1#1 }
  | csd (K : List Frame) (reg : Reg128) (f : CsdFields) (h : csdFields reg = some f) :
    CardWrite c (.running (.returned .well) (.csd :: K)) ({ c with csd := reg, csdValid := true }.withGeometry f.geometry)
  | scr (K : List Frame) (p : List Byte) : CardWrite c (.running .scrData K) (c.withScr p)
  | table (K : List Frame) (p : List Byte) : CardWrite c (.running .tableData K) (c.withSwitchStatus p)
  | inactive (K : List Frame) :
    CardWrite c (.running (.returned .well) (.inactive :: K)) { c with mode := ModeName.inactive.bits }
  | identificationBus (K : List Frame) : CardWrite c (.running .identificationBus K) { c with busWidth := .one }
  | identificationClock (K : List Frame) :
    CardWrite c (.running .identificationClock K) { c with clockClass := .f400K }
  | ready (K : List Frame) (v2 : Bool) (k : Nat) :
    CardWrite c (.running (.returned .well) (.detectOpCond v2 k :: K)) { c with mode := ModeName.ready.bits }
  | identify (K : List Frame) :
    CardWrite c (.running (.returned .well) (.detectCid :: K)) { c with mode := ModeName.identify.bits }
  | standBy (K : List Frame) :
    CardWrite c (.running (.returned .well) (.detectRca :: K)) { c with mode := ModeName.standBy.bits }
  | transferClock (K : List Frame) : CardWrite c (.running .transferClock K) { c with clockClass := .f25M }
  | transfer (K : List Frame) :
    CardWrite c (.running (.returned .well) (.normalLength :: K)) { c.fixBlockSize with mode := ModeName.transfer.bits }
  | deselected (K : List Frame) (r e : Result) :
    CardWrite c (.running (.returned r) (.normalDeselect e :: K)) { c with mode := ModeName.standBy.bits }
  | teardownBus (K : List Frame) : CardWrite c (.running .teardownBus K) { c with busWidth := .one }
  | tornDown (K : List Frame) (r : Result) :
    CardWrite c (.running (.returned r) (.teardownIdle :: K)) { c with mode := ModeName.inactive.bits }
  | freedReturned (K : List Frame) (r : Result) :
    CardWrite c (.running (.returned r) (.freeDevice :: K)) { c with allocated := false }
  | freedEnded (K : List Frame) (ok : Bool) (code : Option Result) :
    CardWrite c (.running (.ended ok code) (.freeDevice :: K)) { c with allocated := false }

/-- The Card is as it was, or the line wrote it. -/
def CardMoves (k : Control) (c d : Card) : Prop := d = c ∨ CardWrite c k d

/-- R296: the fix-up writes the geometry only. -/
theorem fixBlockSize_eq (c : Card) : ∃ count size capacity,
    c.fixBlockSize = { c with blockCount := count, blockSize := size, capacity := capacity } := by
  unfold Card.fixBlockSize
  split
  · exact ⟨_, _, _, rfl⟩
  · exact ⟨_, _, _, rfl⟩

/-- A line writes the registers named for it and no other. -/
theorem CardWrite.same {k : Control} {c d : Card} (h : CardWrite c k d) (r : CardRegister)
    (hr : r ∉ registersWrittenAt k) : r.same c d := by
  cases h
  case transfer K =>
    obtain ⟨count, size, capacity, hfix⟩ := fixBlockSize_eq c
    rw [hfix]
    cases r <;> simp [registersWrittenAt, CardRegister.same] at hr ⊢
  all_goals
    cases r <;> simp [registersWrittenAt, CardRegister.same, Card.withGeometry, Card.withScr, Card.withSwitchStatus] at hr ⊢

/-! ## Routines write no register up to their first host-port call -/

theorem card_ite {p : Prop} [Decidable p] {u v : State} {c : Card} (hu : u.card = c) (hv : v.card = c) :
    (if p then u else v).card = c := by
  split
  · exact hu
  · exact hv

section

variable (K : List Frame) (s : State)

@[simp] theorem enterGoIdle_card : (enterGoIdle K s).card = s.card := rfl
@[simp] theorem enterSendIfCond_card : (enterSendIfCond K s).card = s.card := rfl
@[simp] theorem enterAppCmdPrefix_card : (enterAppCmdPrefix K s).card = s.card := startExchange_card _ _ s
@[simp] theorem enterSendOpCond_card (a : Word) : (enterSendOpCond a K s).card = s.card := startExchange_card _ _ s
@[simp] theorem enterAllSendCid_card : (enterAllSendCid K s).card = s.card := startExchange_card _ _ s
@[simp] theorem enterIssueRca_card : (enterIssueRca K s).card = s.card := startExchange_card _ _ s
@[simp] theorem enterSwitchVoltage_card : (enterSwitchVoltage K s).card = s.card := card_ite rfl (startExchange_card _ _ s)
@[simp] theorem startChecked_card (c : CmdReg) : (startChecked c K s).card = s.card := startExchange_card _ _ s
@[simp] theorem enterSelectCard_card (sel : Bool) : (enterSelectCard sel K s).card = s.card := startExchange_card _ _ s
@[simp] theorem enterGetStatus_card : (enterGetStatus K s).card = s.card := startExchange_card _ _ s
@[simp] theorem enterStopTransmission_card : (enterStopTransmission K s).card = s.card := startExchange_card _ _ s
@[simp] theorem enterGoInactive_card : (enterGoInactive K s).card = s.card := startExchange_card _ _ s
@[simp] theorem enterSetBusWidth_card (width : Nat) : (enterSetBusWidth width K s).card = s.card :=
  card_ite rfl (startExchange_card _ _ s)
@[simp] theorem enterSelectFunction_card (m : SwitchMode) (g i : Nat) : (enterSelectFunction m g i K s).card = s.card :=
  card_ite rfl (card_ite (acquire_card s _) ((startExchange_card _ _ _).trans (acquire_card s _)))
@[simp] theorem enterGetCsd_card : (enterGetCsd K s).card = s.card := startExchange_card _ _ s
@[simp] theorem enterSendCid_card : (enterSendCid K s).card = s.card := startExchange_card _ _ s
@[simp] theorem enterGetScr_card : (enterGetScr K s).card = s.card :=
  card_ite (acquire_card s _) ((startExchange_card _ _ _).trans (acquire_card s _))
@[simp] theorem enterNegotiate_card (g i : Nat) : (enterNegotiate g i K s).card = s.card := startExchange_card _ _ s
@[simp] theorem enterDataCommand_card (dir : Direction) (n : Nat) (addr : Word) (d : Descriptor) :
    (enterDataCommand dir n addr d K s).card = s.card := by
  cases dir with
  | read => exact card_ite (startChecked_card _ s _) (startChecked_card _ s _)
  | write => exact card_ite (startChecked_card _ s _) (startChecked_card _ s _)
@[simp] theorem enterRwBlocks_card (buffer : Option Addr) (start count : Word) (dir : Direction) :
    (enterRwBlocks buffer start count dir K s).card = s.card := card_ite rfl rfl
@[simp] theorem enterFormatBlocks_card (start count : Word) : (enterFormatBlocks start count K s).card = s.card :=
  card_ite rfl rfl
@[simp] theorem enterToNormal_card : (enterToNormal K s).card = s.card := card_ite rfl (startExchange_card _ _ s)
@[simp] theorem enterDetect_card : (enterDetect K s).card = s.card := rfl
@[simp] theorem enterInitialDevice_card : (enterInitialDevice K s).card = s.card := rfl
@[simp] theorem enterInactivateDevice_card : (enterInactivateDevice K s).card = s.card := rfl
@[simp] theorem normalFails_card (x : Result) : (normalFails x K s).card = s.card := startExchange_card _ _ s

end

/-! ## What a line after a call writes -/

section

variable {k : Control} {K : List Frame} {s : State} {x : Result}

theorem CardMoves.ite {p : Prop} [Decidable p] {u v : State} {c : Card} (hu : p → CardMoves k c u.card)
    (hv : ¬p → CardMoves k c v.card) : CardMoves k c (if p then u else v).card := by
  split
  next h => exact hu h
  next h => exact hv h

/-- A line that writes only after `Well` (R13). -/
theorem CardMoves.onWell {f : Frame} {u v : State} {c : Card}
    (hu : CardMoves (.running (.returned .well) (f :: K)) c u.card) (hv : v.card = c) :
    CardMoves (.running (.returned x) (f :: K)) c (if x = .well then u else v).card := by
  split
  next hx => exact hx ▸ hu
  next => exact .inl hv

theorem attemptEnds_card (cur : Cursor) (received : Bool) : (attemptEnds cur received x K s).card = s.card :=
  card_ite (card_ite rfl rfl) (card_ite rfl (card_ite rfl rfl))

theorem polledAnswered_card (cur : Cursor) : (polledAnswered cur x K s).card = s.card := by
  unfold polledAnswered
  split
  · exact enterDataCommand_card _ _ _ _ _ _
  · exact card_ite rfl rfl
  · rfl

theorem initialDetectAnswered_card (ok : Bool) (code : Option Result) :
    (initialDetectAnswered ok code K s).card = s.card := card_ite (enterToNormal_card _ s) rfl

theorem csdAnswered_cardMoves :
    CardMoves (.running (.returned x) (.csd :: K)) s.card (csdAnswered x K s).card := by
  refine .onWell ?_ rfl
  dsimp only
  split
  · exact .inl rfl
  next f hf => exact .inr (.csd _ _ f hf)

theorem detectOpCondAnswered_cardMoves (v2 : Bool) (n : Nat) :
    CardMoves (.running (.returned x) (.detectOpCond v2 n :: K)) s.card (detectOpCondAnswered v2 n x K s).card := by
  unfold detectOpCondAnswered
  split
  · have hc : (detectOpCondAnswered v2 n .well K s).card = (s.setMode .ready).card :=
      card_ite (enterSwitchVoltage_card _ _) (enterAllSendCid_card _ _)
    exact .inr (hc ▸ .ready _ _ _)
  · exact .inl rfl
  · exact .inl rfl

/-- What a frame does next writes the Card only at the lines of `CardWrite`. -/
theorem answer_cardMoves (f : Frame) :
    CardMoves (.running (.returned x) (f :: K)) s.card (answer f x K s).card := by
  cases f with
  | goIdle => exact .onWell (.inr (.goIdle _)) rfl
  | ifCond k => exact .inl (card_ite rfl rfl)
  | appPrefix => exact .inl (card_ite (card_ite rfl (card_ite rfl rfl)) rfl)
  | opCondPrefix a => exact .inl (card_ite (startExchange_card _ _ s) rfl)
  | opCond =>
    exact .onWell (.ite (fun _ => .inl rfl) fun hp => .inr (.opCond _ _ (by simpa using hp))) rfl
  | cid => exact .onWell (.inr (.cid _ _)) rfl
  | rca => exact .onWell (.ite (fun _ => .inl rfl) fun _ => .inr (.rca _ _)) rfl
  | voltage => exact .inl (card_ite (card_ite rfl rfl) rfl)
  | csd => exact csdAnswered_cardMoves
  | scrPrefix => exact .inl (card_ite rfl (startExchange_card _ _ s))
  | scr => exact .inl (card_ite rfl (card_ite rfl rfl))
  | widthPrefix width => exact .inl (card_ite (startChecked_card _ s _) rfl)
  | table => exact .inl (card_ite rfl (card_ite rfl rfl))
  | status => exact .inl (card_ite (card_ite rfl (card_ite rfl rfl)) rfl)
  | stop => exact .inl (card_ite rfl rfl)
  | inactive => exact .onWell (.inr (.inactive _)) rfl
  | checked => exact .inl (card_ite rfl rfl)
  | sent => exact .inl rfl
  | checkLength g i => exact .inl (card_ite (enterSelectFunction_card _ s _ _ _) rfl)
  | checkTable g i => exact .inl (card_ite (card_ite rfl (startChecked_card _ s _)) rfl)
  | switchLength g i => exact .inl (card_ite (enterSelectFunction_card _ s _ _ _) rfl)
  | switchTable g i => exact .inl (card_ite (card_ite rfl rfl) rfl)
  | polled cur => exact .inl (polledAnswered_card cur)
  | commanded cur => exact .inl (card_ite rfl rfl)
  | stopped cur received => exact .inl (attemptEnds_card cur received)
  | eraseStart block remaining => exact .inl (card_ite rfl (startChecked_card _ s _))
  | eraseEnd block remaining => exact .inl (card_ite rfl (startChecked_card _ s _))
  | erased block remaining => exact .inl (card_ite rfl (card_ite rfl rfl))
  | detectIdle => exact .inl (card_ite rfl rfl)
  | detectIfCond => exact .inl rfl
  | detectOpCond v2 n => exact detectOpCondAnswered_cardMoves v2 n
  | detectVoltage => exact .inl (card_ite (enterAllSendCid_card _ s) rfl)
  | detectCid =>
    have hc := enterIssueRca_card (.detectRca :: K) (s.setMode .identify)
    exact .onWell (.inr (hc ▸ .identify _)) rfl
  | detectRca => exact .onWell (.inr (.standBy _)) rfl
  | normalCsd => exact .inl (card_ite (enterSelectCard_card _ s _) (normalFails_card _ s _))
  | normalSelect => exact .inl (card_ite (enterGetScr_card _ s) (normalFails_card _ s _))
  | normalScr =>
    exact .inl (card_ite (card_ite (enterNegotiate_card _ s _ _) rfl) (normalFails_card _ s _))
  | normalSpeed => exact .inl (card_ite rfl (normalFails_card _ s _))
  | normalDrive => exact .inl (card_ite (enterNegotiate_card _ s _ _) (normalFails_card _ s _))
  | normalPower => exact .inl (card_ite (startChecked_card _ s _) (normalFails_card _ s _))
  | normalLength => exact .onWell (.inr (.transfer _)) (normalFails_card _ s _)
  | normalDeselect e =>
    exact CardMoves.ite (u := s.setMode .standBy) (fun _ => .inr (.deselected _ _ _)) fun _ => .inl rfl
  | teardownDeselect => exact .inl rfl
  | teardownIdle => exact .inr (.tornDown _ _)
  | initialDetect => exact .inl (initialDetectAnswered_card _ _)
  | initialNormal => exact .inl rfl
  | freeDevice => exact .inr (.freedReturned _ _)

theorem operationReturns_cardMoves (ok : Bool) (code : Option Result) :
    CardMoves (.running (.ended ok code) K) s.card (operationReturns ok code K s).card := by
  unfold operationReturns
  split
  · exact .inl (initialDetectAnswered_card ok code)
  · exact .inl rfl
  · exact .inr (.freedEnded _ _ _)
  · exact .inl rfl

end

/-- A step of an operation in progress writes the Card only at the lines of `CardWrite`. -/
theorem advance_cardMoves (p : Point) (K : List Frame) (s : State) :
    CardMoves (.running p K) s.card (advance p K s).card := by
  cases p with
  | addFraming => exact .inl rfl
  | sendCommand => exact .inl (card_ite rfl rfl)
  | recvResponse => exact .inl rfl
  | drain => exact .inl (startExchange_card _ _ _)
  | voltage => exact .ite (fun _ => .inr (.voltage _)) fun _ => .inl rfl
  | scrData =>
    have hc := hostRecvData_card s (payloadDescriptor scrLen)
    exact .ite (fun _ => .inl hc) fun _ => .inr (hc ▸ .scr _ _)
  | tableData =>
    have hc := hostRecvData_card s (payloadDescriptor switchBlockLen)
    exact .ite (fun _ => .inl hc) fun _ => .inr (hc ▸ .table _ _)
  | insertion k => exact .inl (card_ite rfl (card_ite rfl rfl))
  | identificationBus => exact .inr (.identificationBus _)
  | identificationClock => exact .inr (.identificationClock _)
  | activation => exact .inl (card_ite rfl rfl)
  | transferClock =>
    have hc : (transferClockCall K s).card = (hostSetClockFrequency .f25M s).card :=
      card_ite (enterNegotiate_card _ _ _ _) (startChecked_card _ _ _)
    exact .inr (hc ▸ .transferClock _)
  | teardownBus =>
    have hc : (teardownBusCall K s).card = (hostSetBusWidth .one s).card := enterSelectCard_card _ _ _
    exact .inr (hc ▸ .teardownBus _)
  | blockData cur =>
    have hc := dataPhase_card s cur.dir (blockDescriptor s cur.dir cur.buffer (cur.blocks s))
    exact .inl (card_ite ((enterStopTransmission_card _ _).trans hc) ((attemptEnds_card _ _).trans hc))
  | ifCondAttempt k last => exact .inl (card_ite rfl (startExchange_card _ _ s))
  | opCondIteration v2 k => exact .inl (card_ite rfl (enterSendOpCond_card _ s _))
  | statusPoll cur => exact .inl (enterGetStatus_card _ s)
  | eraseChunk block remaining => exact .inl (startChecked_card _ s _)
  | returned r =>
    cases K with
    | nil => exact .inl rfl
    | cons f rest => exact answer_cardMoves f
  | ended ok code => exact operationReturns_cardMoves ok code

end Sys2Proof.Machine

/-! The invariant of the Card register block, kept by every write of `CardWrite`; with it and `ControlInv` the invariant of the
block. -/

namespace Sys2Proof.Machine

/-! ## The capacity equation (R28) -/

theorem mul_blockSize_toNat {count : BitVec 64} {size : BitVec 32} (h : count.toNat * size.toNat < 2 ^ 64) :
    (count * size.zeroExtend 64).toNat = count.toNat * size.toNat := by
  rw [BitVec.toNat_mul, BitVec.toNat_setWidth, Nat.mod_eq_of_lt (size.isLt.trans (by decide)), Nat.mod_eq_of_lt h]

/-- R133: 12, 3 and 4 bits of the CSD make at most 2 ^ 21 blocks of at most 2 ^ 15 bytes. -/
theorem geometryV1_capacity (f : CsdV1) :
    (geometryV1 f).capacity.toNat = (geometryV1 f).blockCount.toNat * (geometryV1 f).blockSize.toNat := by
  have hsize : (geometryV1 f).blockSize.toNat ≤ 2 ^ 15 := by
    show (1#32 <<< f.common.readBlLen.toNat).toNat ≤ _
    generalize f.common.readBlLen = n
    revert n; decide
  have hbase : (f.cSize.zeroExtend 64 + 1#64).toNat ≤ 2 ^ 12 := by
    have := f.cSize.isLt
    simp [BitVec.toNat_add]
    omega
  have hshift : 2 ^ (f.cSizeMult.toNat + 2) ≤ 2 ^ 9 := Nat.pow_le_pow_right (by decide) (by have := f.cSizeMult.isLt; omega)
  have hcount : (geometryV1 f).blockCount.toNat ≤ 2 ^ 12 * 2 ^ 9 := by
    show ((f.cSize.zeroExtend 64 + 1#64) <<< (f.cSizeMult.toNat + 2)).toNat ≤ _
    rw [BitVec.toNat_shiftLeft, Nat.shiftLeft_eq]
    exact (Nat.mod_le _ _).trans (Nat.mul_le_mul hbase hshift)
  exact mul_blockSize_toNat (lt_of_le_of_lt (Nat.mul_le_mul hcount hsize) (by decide))

/-- R134: 22 bits of the CSD make at most 2 ^ 32 blocks of 512 bytes. -/
theorem geometryV2_capacity (f : CsdV2) :
    (geometryV2 f).capacity.toNat = (geometryV2 f).blockCount.toNat * (geometryV2 f).blockSize.toNat := by
  have hcount : (geometryV2 f).blockCount.toNat ≤ 2 ^ 32 := by
    have := f.cSize.isLt
    show ((f.cSize.zeroExtend 64 + 1#64) * 1024#64).toNat ≤ _
    simp [BitVec.toNat_add, BitVec.toNat_mul]
    omega
  exact mul_blockSize_toNat (size := 512#32) (lt_of_le_of_lt (Nat.mul_le_mul_right 512 hcount) (by decide))

theorem geometry_capacity (f : CsdFields) :
    f.geometry.capacity.toNat = f.geometry.blockCount.toNat * f.geometry.blockSize.toNat := by
  cases f with
  | v1 f => exact geometryV1_capacity f
  | v2 f => exact geometryV2_capacity f

/-- R296: the fix-up rounds the capacity down to a multiple of 512. -/
theorem fixBlockSize_capacity {c : Card} (h : c.capacity.toNat = c.blockCount.toNat * c.blockSize.toNat) :
    c.fixBlockSize.capacity.toNat = c.fixBlockSize.blockCount.toNat * c.fixBlockSize.blockSize.toNat := by
  unfold Card.fixBlockSize
  split
  · exact h
  · refine mul_blockSize_toNat (size := blockLen) ?_
    have hquot : (c.capacity / blockLen.zeroExtend 64).toNat = c.capacity.toNat / 512 := by
      rw [BitVec.toNat_udiv]; rfl
    rw [hquot]
    exact lt_of_le_of_lt (Nat.div_mul_le_self _ 512) c.capacity.isLt

theorem csdFields_structure {reg : Reg128} {f : CsdFields} (h : csdFields reg = some f) :
    csdStructure reg = 0#2 ∨ csdStructure reg = 1#2 := by
  unfold csdFields at h
  split_ifs at h with h0 h1
  · exact .inl h0
  · exact .inr h1

/-! ## The Card -/

section

variable {host : HostPort} {c : Card}

/-- R30, R290: the mode set takes one bit. -/
theorem CardInv.setMode (h : CardInv host c) {m : ModeName} (hm : modeWritten m.bits) :
    CardInv host { c with mode := m.bits } := { h with mode := hm }

theorem CardInv.fixBlockSize (h : CardInv host c) : CardInv host c.fixBlockSize := by
  have hcap := fixBlockSize_capacity h.capacity
  obtain ⟨count, size, capacity, hfix⟩ := fixBlockSize_eq c
  rw [hfix] at hcap ⊢
  exact { h with capacity := hcap }

/-- Every line that writes the Card keeps its invariant; 1.8 V is recorded only on a host that supports it (R194). -/
theorem CardWrite.keepsInv {k : Control} {d : Card} (hw : CardWrite c k d) (h : CardInv host c)
    (hvoltage : ∀ K, k = .running .voltage K → host.supports1V8 = true) : CardInv host d := by
  cases hw with
  | goIdle K => exact { h.setMode (m := .idle) (.inr (.inl rfl)) with }
  | opCond K w hp => exact { h with ocr := .inr hp }
  | cid K reg => exact { h with }
  | rca K a => exact { h with }
  | voltage K => exact { h with voltage := fun _ => hvoltage K rfl }
  | csd K reg f hf => exact { h with capacity := geometry_capacity f, csd := fun _ => csdFields_structure hf }
  | scr K p => exact { h with version := fun _ => rfl }
  | table K p => exact { h with }
  | inactive K => exact h.setMode (m := .inactive) (by simp [modeWritten])
  | identificationBus K => exact { h with busWidth := rfl }
  | identificationClock K => exact { h with }
  | ready K v2 n => exact h.setMode (m := .ready) (by simp [modeWritten])
  | identify K => exact h.setMode (m := .identify) (by simp [modeWritten])
  | standBy K => exact h.setMode (m := .standBy) (by simp [modeWritten])
  | transferClock K => exact { h with }
  | transfer K => exact h.fixBlockSize.setMode (m := .transfer) (by simp [modeWritten])
  | deselected K r e => exact h.setMode (m := .standBy) (by simp [modeWritten])
  | teardownBus K => exact { h with busWidth := rfl }
  | tornDown K r => exact h.setMode (m := .inactive) (by simp [modeWritten])
  | freedReturned K r => exact { h with }
  | freedEnded K ok code => exact { h with }

theorem cardInv_initial (host : HostPort) (allocated : Bool) : CardInv host (Card.initial allocated) :=
  ⟨.inl rfl, rfl, nofun, nofun, .inl rfl, nofun, rfl⟩

end

/-! ## What a request writes in the Card -/

theorem runOperation_card {enter : List Frame → State → State} {s t : State}
    (henter : (enter [] s.begin).card = s.begin.card) (h : runOperation enter s = .next t) : t.card = s.card := by
  rcases runOperation_cases enter s with ⟨-, he⟩ | ⟨-, -, he⟩ | ⟨-, -, he⟩
  · cases he ▸ h
  · cases he ▸ h
    rfl
  · cases he ▸ h
    exact henter

theorem allocateDevice_card (s : State) :
    (allocateDevice s).card = s.card ∨ (allocateDevice s).card = Card.initial true := by
  unfold allocateDevice
  split_ifs
  · exact .inl rfl
  · exact .inl rfl
  · exact .inl rfl
  · exact .inr rfl

theorem enterFreeDevice_card (s : State) : (enterFreeDevice [] s).card = s.card ∨
    (enterFreeDevice [] s).card = { s.card with allocated := false } := by
  unfold enterFreeDevice
  split
  · exact .inr rfl
  · exact .inl rfl

/-- A request writes the Card only if it is `allocate_device` (R300), or `free_device` of an inactive card (R302). -/
theorem exec_card {i : Instr} {s t : State} (h : exec i s = .next t) :
    t.card = s.card ∨ (i = .allocateDevice ∧ t.card = Card.initial true) ∨
      (i = .freeDevice ∧ t.card = { s.card with allocated := false }) := by
  cases i
  case allocateDevice =>
    simp only [exec, execAllocateDevice] at h
    split at h <;> cases h
    exact (allocateDevice_card s.begin).imp_right fun hc => .inl ⟨rfl, hc⟩
  case reservedOp => cases h
  case freeDevice =>
    have hrun : runOperation enterFreeDevice s = .next t := h
    obtain hc | hc := enterFreeDevice_card s.begin
    · exact .inl (runOperation_card hc hrun)
    · rcases runOperation_cases enterFreeDevice s with ⟨-, he⟩ | ⟨-, -, he⟩ | ⟨-, -, he⟩
      · cases he ▸ hrun
      · cases he ▸ hrun
        exact .inl rfl
      · cases he ▸ hrun
        exact .inr (.inr ⟨rfl, hc⟩)
  case cmd16 | cmd17 | cmd18 | cmd24 | cmd25 | cmd32 | cmd33 | cmd38 =>
    exact .inl (runOperation_card (startChecked_card _ _ _) h)
  all_goals exact .inl (runOperation_card (by simp) h)

/-! ## Memory and the frames sent -/

theorem Performs.mem_wf {s t : State} (h : Performs none s t) (hs : s.mem.wf = true) : t.mem.wf = true := by
  rw [(h.silent rfl).1]; exact hs

theorem hostRecvData_mem_wf (d : Descriptor) {s : State} (h : s.mem.wf = true) : (hostRecvData d s).1.mem.wf = true := by
  unfold hostRecvData State.receive
  dsimp only
  split
  · exact h
  · exact writeBytes_wf _ _ _ h
  · exact h

theorem dataPhase_mem_wf (dir : Direction) (d : Descriptor) {s : State} (h : s.mem.wf = true) :
    (dataPhase dir d s).1.mem.wf = true := by
  cases dir with
  | read => exact hostRecvData_mem_wf d h
  | write => exact h

/-- A step keeps the memory's canonical form: only a `recv_data` writes memory, and the rest of a step makes no call. -/
theorem advance_mem_wf (p : Point) (K : List Frame) {s : State} (h : s.mem.wf = true) : (advance p K s).mem.wf = true := by
  have hsilent (hc : callAt s p = none) : (advance p K s).mem.wf = true := by
    rw [((advance_performs s p K).silent hc).1]; exact h
  cases p
  case addFraming | recvResponse | identificationBus | identificationClock => exact h
  case sendCommand =>
    have hr := Performs.refl (hostSendCommand s).1
    exact Performs.mem_wf (s := (hostSendCommand s).1) (.ite (hr.goto _) (hr.giveBack _)) h
  case drain => exact Performs.mem_wf ((Performs.refl (hostRecvResponse s)).startExchange _) h
  case voltage =>
    have hr := Performs.refl (hostSwitchVoltage s).1
    exact Performs.mem_wf (s := (hostSwitchVoltage s).1) (.ite ((hr.setCard _).giveBack _) (hr.giveBack _)) h
  case scrData | tableData =>
    have hr (d : Descriptor) := Performs.refl (hostRecvData d s).1
    exact Performs.mem_wf (.ite ((hr _).releaseGiveBack _) (((hr _).setCard _).releaseGiveBack _))
      (hostRecvData_mem_wf _ h)
  case insertion k =>
    have hr := Performs.refl (hostIsCardInserted s).1
    exact Performs.mem_wf (s := (hostIsCardInserted s).1) (.ite (hr.goto _) (.ite (hr.endWith _ _) (hr.goto _))) h
  case activation =>
    have hr := Performs.refl (hostActivateCard s).1
    exact Performs.mem_wf (s := (hostActivateCard s).1) (.ite (hr.endWith _ _) hr.enterGoIdle) h
  case transferClock =>
    have hr := Performs.refl (hostSetClockFrequency .f25M s)
    exact Performs.mem_wf (s := hostSetClockFrequency .f25M s) (.ite (hr.enterNegotiate _ _) (hr.enterSetBlockLength _)) h
  case teardownBus => exact Performs.mem_wf ((Performs.refl (hostSetBusWidth .one s)).enterSelectCard _) h
  case blockData cur =>
    have hr := Performs.refl (dataPhase cur.dir (blockDescriptor s cur.dir cur.buffer (cur.blocks s)) s).1
    exact Performs.mem_wf (.ite hr.enterStopTransmission (hr.attemptEnds _ _ _)) (dataPhase_mem_wf _ _ h)
  case ifCondAttempt | opCondIteration | statusPoll | eraseChunk | returned | ended =>
    exact hsilent rfl

/-- The one position that puts a frame on the wire, and the frame. -/
theorem callAt_wire {s : State} {p : Point} {f : BitVec 48} (h : (callAt s p).bind HostEvent.wire? = some f) :
    p = .sendCommand ∧ f = s.cmd.wire := by
  cases p
  case sendCommand => exact ⟨rfl, (Option.some.inj h).symm⟩
  case blockData cur =>
    obtain ⟨dir, buffer, block, remaining, retry, polls⟩ := cur
    cases dir <;> cases h
  all_goals cases h

theorem wireTraceOf_call (call : Option HostEvent) (l : List HostEvent) :
    wireTraceOf (call.toList ++ l) = wireTraceOf l ++ (call.bind HostEvent.wire?).toList := by
  cases call with
  | none => simp
  | some e => exact wireTraceOf_cons e l

/-- A step adds to the frames sent at most the one in the command register, at its `send_command`. -/
theorem advance_wireTrace {s : State} {p : Point} {K : List Frame} {f : BitVec 48} (h : f ∈ wireTrace (advance p K s)) :
    f ∈ wireTrace s ∨ p = .sendCommand ∧ f = s.cmd.wire := by
  have htrace := (advance_performs s p K).trace
  unfold wireTrace at h ⊢
  rw [htrace, wireTraceOf_call, List.mem_append, Option.mem_toList] at h
  exact h.imp_right callAt_wire

/-! ## What a step is -/

/-- A step that answers a next state waits at the port, makes the next step of the operation in progress, or takes the request
from the port of the idle block and runs it in its mode. -/
theorem step_cases {s t : State} (h : step s = .next t) :
    (s.control = .idle ∧ t = s) ∨ (∃ p K, At s p K ∧ t = advance p K s) ∨
      ∃ r i, s.control = .idle ∧ s.request = some r ∧
        (exec i (s.takeRequest r) = .next t ∨ execDescribe i (s.takeRequest r) = .next t) := by
  unfold step fetch at h
  cases hr : s.request with
  | none =>
    cases hc : s.control with
    | idle =>
      simp only [hr, hc, if_true, Host.Outcome.next.injEq] at h
      exact .inl ⟨rfl, h.symm⟩
    | running p K =>
      simp only [hr, hc, reduceCtorEq, if_false, Host.Outcome.next.injEq, resume] at h
      exact .inr (.inl ⟨p, K, ⟨hc, hr⟩, h.symm⟩)
  | some r =>
    by_cases hc : s.control = .idle
    · cases hd : decode r.word with
      | error e => simp [hr, hc, hd] at h
      | ok i =>
        refine .inr (.inr ⟨r, i, hc, rfl, ?_⟩)
        by_cases hmode : (r.hostSupplied || !hasCallModes i) = true
        · rw [hr] at h
          simp only [hc, hd, hmode, if_true, ne_eq, not_true_eq_false, if_false] at h
          exact .inl h
        · rw [hr] at h
          simp only [hc, hd, hmode, ne_eq, not_true_eq_false, if_false] at h
          exact .inr h
    · simp [hr, hc] at h

/-! ## The invariant of the block -/

theorem Inv.controlInv {s : State} (h : Inv s) : ∃ i b, routineOf i = some b ∧ ControlInv b s := by
  obtain ⟨-, -, hpayload, hidle, hallocated, ⟨i, b, hi, hnesting⟩, hbounds, -, hframed⟩ := h
  exact ⟨i, b, hi, hpayload, hidle, hallocated, hnesting, hbounds, hframed⟩

theorem ControlInv.inv {i : Instr} {b : Routine} {s : State} (h : ControlInv b s) (hi : routineOf i = some b)
    (card : CardInv s.host s.card) (mem : s.mem.wf = true)
    (frames : s.host.framing = .coreCRC7 → ∀ f ∈ wireTrace s, frameValid f = true) : Inv s :=
  ⟨card, mem, h.payload, h.idle, h.allocated, ⟨i, b, hi, h.nesting⟩, h.bounds, frames, h.framed⟩

/-- The next step of an operation in progress. -/
theorem advance_inv {s : State} {p : Point} {K : List Frame} (h : Inv s) (hc : s.control = .running p K) :
    Inv (advance p K s) := by
  obtain ⟨i, b, hi, hcontrol⟩ := h.controlInv
  have hhost : (advance p K s).host = s.host := (advance_performs s p K).host
  refine (hcontrol.advance hc).inv hi ?_ (advance_mem_wf p K h.mem) fun hf f hmem => ?_
  · rw [hhost]
    obtain hsame | hwrite := advance_cardMoves p K s
    · rw [hsame]; exact h.card
    · refine hwrite.keepsInv h.card fun L he => ?_
      cases he
      exact (hcontrol.inside hc).2.2
  · rw [hhost] at hf
    obtain hold | ⟨rfl, rfl⟩ := advance_wireTrace hmem
    · exact h.frames hf f hold
    · exact h.framed hf K hc

/-- No frame has been sent right after a request. -/
theorem wireTrace_of_performs {s t : State} (h : Performs none s.begin t) : wireTrace t = [] := by
  have htrace : t.trace = [] := h.trace
  unfold wireTrace
  rw [htrace]
  rfl

/-- A request begins or ends in the invariant. Every instruction that runs has a routine but `allocate_device`, which is over. -/
theorem exec_inv {s t : State} {i : Instr} (hcard : CardInv s.host s.card) (hmem : s.mem.wf = true)
    (h : exec i s = .next t) : Inv t := by
  have hp := exec_performs h
  have hhost : t.host = s.host := hp.host
  have hc : CardInv t.host t.card := by
    rw [hhost]
    obtain hsame | ⟨-, hinit⟩ | ⟨-, hfreed⟩ := exec_card h
    · rw [hsame]; exact hcard
    · rw [hinit]; exact cardInv_initial _ _
    · rw [hfreed]; exact { hcard with }
  have hcontrol : ∃ j b, routineOf j = some b ∧ ControlInv b t := by
    cases hi : routineOf i with
    | some b => exact ⟨i, b, hi, exec_controlInv hi h⟩
    | none =>
      obtain rfl := exec_none hi h
      exact ⟨.detect, .detect, rfl, execAllocateDevice_controlInv h⟩
  obtain ⟨j, b, hj, hb⟩ := hcontrol
  exact hb.inv hj hc (hp.mem_wf hmem) fun _ f hf => by rw [wireTrace_of_performs hp] at hf; cases hf

/-- Describe mode (R180) leaves the block idle. -/
theorem execDescribe_inv {s t : State} {i : Instr} (hcard : CardInv s.host s.card) (hmem : s.mem.wf = true)
    (hidle : s.control = .idle) (h : execDescribe i s = .next t) : Inv t := by
  have hp := execDescribe_performs h
  have ht : t.card = s.card ∧ ControlInv .detect t := by
    unfold execDescribe at h
    split at h
    · cases h
    · split at h <;> cases h
      · exact ⟨rfl, .finish _ _ _⟩
      · exact ⟨rfl, controlInv_idle _ hidle rfl rfl rfl⟩
  refine ht.2.inv (i := .detect) rfl ?_ (hp.mem_wf hmem) fun _ f hf => by rw [wireTrace_of_performs hp] at hf; cases hf
  have hhost : t.host = s.host := hp.host
  rw [ht.1, hhost]
  exact hcard

/-- Settles O11: the block waits, makes the next step of the operation in progress (`advance_inv`), or begins a request
(`exec_inv`, `execDescribe_inv`). -/
theorem everyStepKeepsTheInvariant : Obligations.EveryStepKeepsTheInvariant := by
  unfold Obligations.EveryStepKeepsTheInvariant
  intro s t h hstep
  obtain ⟨-, rfl⟩ | ⟨p, K, hat, rfl⟩ | ⟨r, i, hidle, -, hexec | hdescribe⟩ := step_cases hstep
  · exact h
  · exact advance_inv h hat.control
  · exact exec_inv (s := s.takeRequest r) h.card h.mem hexec
  · exact execDescribe_inv (s := s.takeRequest r) h.card h.mem hidle hdescribe

/-! ## The registers a routine writes -/

/-- The registers that a routine and those it calls write. -/
def Routine.writes : Routine → List CardRegister
  | .exchange | .sendIfCond | .appCmdPrefix | .getStatus | .stopTransmission | .goInactive | .checked | .rwBlocks
  | .formatBlocks => []
  | .goIdle | .issueRca => [.rca]
  | .sendOpCond => [.ocr]
  | .readCid => [.cid]
  | .switchVoltage => [.voltage]
  | .getCsd => [.csd, .geometry]
  | .getScr => [.scr]
  | .selectFunction | .negotiate => [.functions]
  | .detect => [.rca, .ocr, .voltage, .cid, .busWidth, .clockClass]
  | .toNormal => [.csd, .geometry, .scr, .functions, .clockClass]
  | .initialDevice => [.rca, .ocr, .voltage, .cid, .csd, .geometry, .scr, .functions, .busWidth, .clockClass]
  | .inactivateDevice => [.rca, .busWidth]
  | .freeDevice => [.rca, .busWidth, .allocated]

theorem routine_writes_eq {i : Instr} {b : Routine} (h : routineOf i = some b) : b.writes = registersWrittenBy i := by
  cases i <;> cases h <;> rfl

/-- What a called routine writes, its caller writes. -/
theorem Frame.calls_writes (f : Frame) : f.calls.writes ⊆ f.routine.writes := by
  cases f <;> simp [Frame.calls, Frame.routine, Routine.writes]

theorem nested_writes {b r : Routine} {K : List Frame} (h : nested b r K) : r.writes ⊆ b.writes := by
  induction K generalizing r with
  | nil => exact h ▸ List.Subset.refl _
  | cons f rest ih =>
    obtain ⟨rfl, hrest⟩ := h
    exact List.Subset.trans f.calls_writes (ih hrest)

/-- The registers of a line are among those of the request it runs for. -/
theorem registersWrittenAt_subset {b : Routine} {k : Control} (h : controlNested b k) :
    registersWrittenAt k ⊆ b.writes := by
  unfold registersWrittenAt
  split
  case h_1 | h_2 | h_3 | h_5 | h_6 | h_7 | h_14 | h_15 =>
    exact List.Subset.trans (by simp [Frame.routine, Routine.writes]) (nested_writes h.1.2)
  case h_4 | h_8 | h_9 | h_10 | h_11 | h_12 | h_13 =>
    exact List.Subset.trans (by simp [Point.routine, Routine.writes]) (nested_writes h.1)
  case h_16 => exact List.nil_subset _

/-! ## Runs -/

theorem CardRegister.same_refl (r : CardRegister) (c : Card) : r.same c c := by
  cases r <;> simp [CardRegister.same]

theorem CardRegister.same_trans {r : CardRegister} {c d e : Card} (h : r.same c d) (k : r.same d e) : r.same c e := by
  cases r <;> simp_all [CardRegister.same]

/-- R21 to R34: a step writes only the registers of its line. -/
theorem advance_same {p : Point} {K : List Frame} {s : State} {r : CardRegister}
    (hr : r ∉ registersWrittenAt (.running p K)) : r.same s.card (advance p K s).card := by
  obtain hsame | hwrite := advance_cardMoves p K s
  · rw [hsame]; exact r.same_refl _
  · exact hwrite.same r hr

/-- From a state of a run on, only the registers of the run's routine are written. -/
theorem Steps.same {b : Routine} {t u : State} {r : CardRegister} (h : Steps t u) (ht : ControlInv b t)
    (hreq : t.request = none) (hr : r ∉ b.writes) : r.same t.card u.card := by
  induction h with
  | here => exact r.same_refl _
  | step t v u hstep _ ih =>
    obtain ⟨-, rfl⟩ | ⟨p, K, hat, rfl⟩ | ⟨q, i, -, hsome, -⟩ := step_cases hstep
    · exact ih ht hreq
    · have hline := registersWrittenAt_subset ht.nesting
      rw [hat.control] at hline
      exact CardRegister.same_trans (advance_same fun hmem => hr (hline hmem))
        (ih (ht.advance hat.control) ((advance_performs t p K).request.trans hreq))
    · cases hreq.symm.trans hsome

/-- A request writes no register that its instruction is not named for. -/
theorem exec_same {i : Instr} {s t : State} {r : CardRegister} (h : exec i s = .next t) (hi : i ≠ .allocateDevice)
    (hr : r ∉ registersWrittenBy i) : r.same s.card t.card := by
  obtain hsame | ⟨hinit, -⟩ | ⟨rfl, hfreed⟩ := exec_card h
  · rw [hsame]; exact r.same_refl _
  · exact absurd hinit hi
  · rw [hfreed]
    cases r <;> simp [CardRegister.same, registersWrittenBy] at hr ⊢

/-- Settles O20: a line writes the registers of `CardWrite` (`CardWrite.same`), and the call nesting names the requests under which
it runs (`registersWrittenAt_subset`). -/
theorem cardRegistersChangeOnlyInTheirWriters : Obligations.CardRegistersChangeOnlyInTheirWriters := by
  unfold Obligations.CardRegistersChangeOnlyInTheirWriters
  refine ⟨fun s t p K hat hstep r hr => ?_, fun s u i hreq hi hrun r hr => ?_⟩
  · rw [step_at hat] at hstep
    cases hstep
    exact advance_same (hat.control ▸ hr)
  · obtain ⟨t, hexec, hsteps⟩ := hrun
    cases hb : routineOf i with
    | none => exact absurd (exec_none hb hexec) hi
    | some b =>
      have htail := hsteps.same (exec_controlInv hb hexec) ((exec_performs hexec).request.trans hreq)
        (routine_writes_eq hb ▸ hr)
      exact CardRegister.same_trans (exec_same hexec hi hr) htail

end Sys2Proof.Machine

/-! Overlapping requests (20_memory.md R74): while an operation is in progress neither the port nor `exec` begins another. -/

namespace Sys2Proof.Machine

/-- Every instruction but `allocate_device` and a reserved op code is a `runOperation` of its pseudocode. What is entered may depend
on `s`: a data command takes the descriptor handed over with the request. -/
theorem exec_eq_runOperation {i : Instr} (s : State) (halloc : i ≠ .allocateDevice) (hres : ∀ op, i ≠ .reservedOp op) :
    ∃ enter, exec i s = runOperation enter s := by
  cases i
  case allocateDevice => exact absurd rfl halloc
  case reservedOp op => exact absurd rfl (hres op)
  all_goals exact ⟨_, rfl⟩

theorem runOperation_overlapping (enter : List Frame → State → State) {s : State} (h : s.control ≠ .idle) :
    runOperation enter s = .refused .overlappingRequest := if_pos h

theorem execAllocateDevice_overlapping {s : State} (h : s.control ≠ .idle) :
    execAllocateDevice s = .refused .overlappingRequest := if_pos h

theorem exec_overlapping {i : Instr} {s : State} (h : s.control ≠ .idle) (hres : ∀ op, i ≠ .reservedOp op) :
    exec i s = .refused .overlappingRequest := by
  by_cases halloc : i = .allocateDevice
  · subst halloc
    exact execAllocateDevice_overlapping h
  · obtain ⟨enter, hrun⟩ := exec_eq_runOperation s halloc hres
    rw [hrun, runOperation_overlapping enter h]

/-- The word of the request is not looked at: the fetch stops before the decoder. -/
theorem fetch_overlapping {s : State} {r : Request} (h : s.control ≠ .idle) (hr : s.request = some r) :
    fetch s = .overlapping := by
  simp only [fetch, hr, if_pos h]

theorem step_overlapping {s : State} {r : Request} (h : s.control ≠ .idle) (hr : s.request = some r) :
    step s = .refused .overlappingRequest := by
  simp only [step, fetch_overlapping h hr]

/-- Settles O17: the fetch refuses at the port (`fetch_overlapping`), and the checks of `runOperation` and of `allocate_device` refuse
in `exec`. -/
theorem overlappingRequestsAreRefused : Obligations.OverlappingRequestsAreRefused := by
  unfold Obligations.OverlappingRequestsAreRefused
  exact ⟨fun _ _ h hr => step_overlapping h hr, fun _ _ h hres => exec_overlapping h hres⟩

end Sys2Proof.Machine

/-! The fields of the frames on the command line (30_encoding.md R80 to R85): the 48 bits of a command and of a short response are
the same five fields. -/

namespace Sys2Proof.Machine

/-! ## The 48-bit frame -/

/-- R80, R83: the two direction bits, the index, the argument or payload, the CRC7 and the stop bit. -/
def frameFields (direction : BitVec 2) (index : BitVec 6) (arg : Word) (crc : BitVec 7) : BitVec 48 :=
  direction ++ (index ++ (arg ++ (crc ++ 1#1)))

section

variable (direction : BitVec 2) (index : BitVec 6) (arg : Word) (crc : BitVec 7)

@[simp] theorem frameFields_direction : (frameFields direction index arg crc).extractLsb 47 46 = direction :=
  BitVec.extractLsb'_append_eq_left

@[simp] theorem frameFields_index : (frameFields direction index arg crc).extractLsb 45 40 = index :=
  calc (frameFields direction index arg crc).extractLsb 45 40
    _ = (index ++ (arg ++ (crc ++ 1#1))).extractLsb' 40 6 := BitVec.extractLsb'_append_eq_of_add_le (by decide)
    _ = index := BitVec.extractLsb'_append_eq_left

/-- The bits below the index, and so every field there, stand in the argument's 40 bits. -/
theorem frameFields_low (start len : Nat) (h : start + len ≤ 40) :
    (frameFields direction index arg crc).extractLsb' start len = (arg ++ (crc ++ 1#1)).extractLsb' start len :=
  (BitVec.extractLsb'_append_eq_of_add_le (show start + len ≤ 46 by omega)).trans (BitVec.extractLsb'_append_eq_of_add_le h)

@[simp] theorem frameFields_arg : (frameFields direction index arg crc).extractLsb 39 8 = arg :=
  (frameFields_low direction index arg crc 8 32 (by decide)).trans BitVec.extractLsb'_append_eq_left

/-- Any bits of the argument, at their place in the frame. -/
theorem frameFields_arg_low (len : Nat) (h : len ≤ 32) :
    (frameFields direction index arg crc).extractLsb' 8 len = arg.extractLsb' 0 len :=
  (frameFields_low direction index arg crc 8 len (by omega)).trans (BitVec.extractLsb'_append_eq_of_le (by decide))

@[simp] theorem frameFields_crc : (frameFields direction index arg crc).extractLsb 7 1 = crc :=
  calc (frameFields direction index arg crc).extractLsb 7 1
    _ = (arg ++ (crc ++ 1#1)).extractLsb' 1 7 := frameFields_low direction index arg crc 1 7 (by decide)
    _ = (crc ++ 1#1).extractLsb' 1 7 := BitVec.extractLsb'_append_eq_of_add_le (by decide)
    _ = crc := BitVec.extractLsb'_append_eq_left

/-- The two parts of a command buffer's first byte, seen from the frame (R81). -/
theorem frameBits_eq_frameFields :
    frameBits (direction ++ index) arg (crc ++ 1#1) = frameFields direction index arg crc :=
  (BitVec.append_assoc (x₁ := direction ++ index) (x₂ := arg)).trans (BitVec.append_assoc (x₁ := direction))

@[simp] theorem frameFields_stop : (frameFields direction index arg crc).getLsbD 0 = true := by
  rw [← frameBits_eq_frameFields, frameBits_getLsbD, if_pos (by decide)]
  exact BitVec.getLsbD_append.trans (if_pos (by decide))

/-- Bit 46 + k of the frame is bit k of the direction. -/
theorem frameFields_direction_bit (k : Nat) (h : k < 2) :
    (frameFields direction index arg crc).getLsbD (46 + k) = direction.getLsbD k :=
  BitVec.getLsbD_append.trans ((if_neg (by omega)).trans (by rw [Nat.add_sub_cancel_left]))

theorem bufferOf_append (ib : Byte) : bufferOf (ib ++ arg) = commandBuffer ib arg := by
  have hib : (ib ++ arg).extractLsb' 32 8 = ib := BitVec.extractLsb'_append_eq_left
  have harg : ∀ start, start + 8 ≤ 32 → (ib ++ arg).extractLsb' start 8 = arg.extractLsb' start 8 :=
    fun start h => BitVec.extractLsb'_append_eq_of_add_le h
  simp only [bufferOf, commandBuffer, List.cons.injEq, and_true]
  exact ⟨hib, harg 24 (by decide), harg 16 (by decide), harg 8 (by decide), harg 0 (by decide)⟩

/-- R81: the first 40 bits are the command buffer. -/
@[simp] theorem frameFields_message :
    bufferOf ((frameFields direction index arg crc).extractLsb 47 8) = commandBuffer (direction ++ index) arg := by
  have h : (frameFields direction index arg crc).extractLsb 47 8 = (direction ++ index) ++ arg := by
    rw [← frameBits_eq_frameFields]
    exact BitVec.extractLsb'_append_eq_left
  rw [h, bufferOf_append]

end

/-! ## Command frames and responses -/

theorem crcByte_eq_append (c : BitVec 7) : crcByte c = c ++ 1#1 := by
  revert c; decide

/-- R80, R162, R163: the fields of a command frame. -/
theorem frameOf_eq_frameFields (index : BitVec 6) (arg : Word) :
    frameOf index arg = frameFields 1#2 index arg (crc7 (commandBuffer (1#2 ++ index) arg)) := by
  rw [← frameBits_eq_frameFields, ← crcByte_eq_append, ← startBits_low]
  rfl

/-- R83: the index field of a short response, which R3 does not echo. -/
def responseIndex (type : ResponseType) (index : BitVec 6) : BitVec 6 :=
  if type = .r3 then 0b111111#6 else index

/-- R83: the CRC field of a short response; R3 has none. -/
def responseCrc (type : ResponseType) (index : BitVec 6) (payload : Word) : BitVec 7 :=
  if type = .r3 then 0b1111111#7 else crc7 (commandBuffer (0#2 ++ index) payload)

/-- R83, R84: the types other than none and R2 have a short response, of these fields. -/
theorem shortResponseFrame_eq (type : ResponseType) (index : BitVec 6) (payload : Word) (hnone : type ≠ .none)
    (hr2 : type ≠ .r2) :
    shortResponseFrame type index payload =
      some (frameFields 0#2 (responseIndex type index) payload (responseCrc type index payload)) := by
  cases type
  case none => exact absurd rfl hnone
  case r2 => exact absurd rfl hr2
  all_goals rfl

theorem commandFrame_fields (index : BitVec 6) (arg : Word) :
    (frameOf index arg).getLsbD 47 = false ∧ (frameOf index arg).getLsbD 46 = true ∧
    (frameOf index arg).extractLsb 45 40 = index ∧ (frameOf index arg).extractLsb 39 8 = arg ∧
    (frameOf index arg).extractLsb 7 1 = crc7 (bufferOf ((frameOf index arg).extractLsb 47 8)) ∧
    (frameOf index arg).getLsbD 0 = true := by
  rw [frameOf_eq_frameFields]
  refine ⟨?_, ?_, frameFields_index .., frameFields_arg .., ?_, frameFields_stop ..⟩
  · exact frameFields_direction_bit 1#2 index arg _ 1 (by decide)
  · exact frameFields_direction_bit 1#2 index arg _ 0 (by decide)
  · rw [frameFields_crc, frameFields_message]

theorem shortResponse_fields (type : ResponseType) (index : BitVec 6) (payload : Word) (hnone : type ≠ .none)
    (hr2 : type ≠ .r2) :
    ∃ f, shortResponseFrame type index payload = some f ∧
      f.getLsbD 47 = false ∧ f.getLsbD 46 = false ∧ f.getLsbD 0 = true ∧
      f.extractLsb 39 8 = payload ∧ shortResponsePayload f = payload ∧
      (type = .r3 → f.extractLsb 45 40 = 0b111111#6 ∧ f.extractLsb 7 1 = 0b1111111#7) ∧
      (type ≠ .r3 → f.extractLsb 45 40 = index ∧ f.extractLsb 7 1 = crc7 (bufferOf (f.extractLsb 47 8))) := by
  refine ⟨_, shortResponseFrame_eq type index payload hnone hr2, ?_, ?_, frameFields_stop .., frameFields_arg ..,
    frameFields_arg .., fun h3 => ?_, fun h3 => ?_⟩
  · exact frameFields_direction_bit 0#2 _ payload _ 1 (by decide)
  · exact frameFields_direction_bit 0#2 _ payload _ 0 (by decide)
  · rw [frameFields_index, frameFields_crc, responseIndex, responseCrc, if_pos h3, if_pos h3]
    exact ⟨rfl, rfl⟩
  · rw [frameFields_index, frameFields_crc, frameFields_message, responseIndex, responseCrc, if_neg h3, if_neg h3]
    exact ⟨rfl, rfl⟩

/-- R83, R86: an R2 frame carries the register's bits 127:1 above its stop bit. -/
theorem longResponse_fields (reg : Reg128) :
    (longResponseFrame reg).getLsbD 135 = false ∧ (longResponseFrame reg).getLsbD 134 = false ∧
    (longResponseFrame reg).extractLsb 133 128 = 0b111111#6 ∧
    (longResponseFrame reg).extractLsb 127 1 = reg.extractLsb 127 1 ∧ (longResponseFrame reg).getLsbD 0 = true := by
  have hlow : ∀ start len, start + len ≤ 128 →
      (longResponseFrame reg).extractLsb' start len = (reg.extractLsb' 1 127 ++ 1#1).extractLsb' start len := fun start len h =>
    (BitVec.extractLsb'_append_eq_of_add_le (show start + len ≤ 134 by omega)).trans
      (BitVec.extractLsb'_append_eq_of_add_le h)
  have hhigh : ∀ k, (longResponseFrame reg).getLsbD (134 + k) = (0#2).getLsbD k := fun k =>
    BitVec.getLsbD_append.trans ((if_neg (by omega)).trans (by rw [Nat.add_sub_cancel_left]))
  refine ⟨hhigh 1, hhigh 0, ?_, (hlow 1 127 (by decide)).trans BitVec.extractLsb'_append_eq_left, ?_⟩
  · exact (BitVec.extractLsb'_append_eq_of_add_le (by decide)).trans BitVec.extractLsb'_append_eq_left
  · have hstop : (longResponseFrame reg).extractLsb' 0 1 = 1#1 :=
      (hlow 0 1 (by decide)).trans BitVec.extractLsb'_append_eq_right
    simpa using congrArg (BitVec.getLsbD · 0) hstop

/-- Settles O4, from the five fields the command frame and the short responses share (`frameFields`). -/
theorem frameFieldsStandInTheirPlaces : Obligations.FrameFieldsStandInTheirPlaces := by
  unfold Obligations.FrameFieldsStandInTheirPlaces
  refine ⟨commandFrame_fields, fun type index payload => ⟨?_, shortResponse_fields type index payload⟩, longResponse_fields⟩
  rintro (rfl | rfl) <;> rfl

end Sys2Proof.Machine

/-! The request words (30_encoding.md R87 to R98): the decoder on the encoder's words, and what the decoder accepts. -/

namespace Sys2Proof.Machine

/-! ## The operation record (R97, log 2) -/

section

variable (op : BitVec 4) (dir present : BitVec 1) (start count : Word) (buffer : Addr)

/-- Bits 39:0 of the record: all but the count and the buffer. -/
theorem opWord_low (first len : Nat) (h : first + len ≤ 40) : (opWord op dir present start count buffer).extractLsb' first len =
    (start ++ (0#2 ++ (present ++ (dir ++ op)))).extractLsb' first len :=
  (BitVec.extractLsb'_append_eq_of_add_le (show first + len ≤ 72 by omega)).trans (BitVec.extractLsb'_append_eq_of_add_le h)

/-- Bits 5:0 of the record: buffer-present, direction and op. -/
theorem opWord_head (first len : Nat) (h : first + len ≤ 6) : (opWord op dir present start count buffer).extractLsb' first len =
    (present ++ (dir ++ op)).extractLsb' first len :=
  (opWord_low op dir present start count buffer first len (by omega)).trans
    ((BitVec.extractLsb'_append_eq_of_add_le (show first + len ≤ 8 by omega)).trans (BitVec.extractLsb'_append_eq_of_add_le h))

@[simp] theorem opWord_op : (opWord op dir present start count buffer).extractLsb 3 0 = op :=
  (opWord_head op dir present start count buffer 0 4 (by decide)).trans
    ((BitVec.extractLsb'_append_eq_of_add_le (by decide)).trans BitVec.extractLsb'_append_eq_right)

@[simp] theorem opWord_start : (opWord op dir present start count buffer).extractLsb 39 8 = start :=
  (opWord_low op dir present start count buffer 8 32 (by decide)).trans BitVec.extractLsb'_append_eq_left

@[simp] theorem opWord_count : (opWord op dir present start count buffer).extractLsb 71 40 = count :=
  (BitVec.extractLsb'_append_eq_of_add_le (by decide)).trans BitVec.extractLsb'_append_eq_left

@[simp] theorem opWord_buffer : (opWord op dir present start count buffer).extractLsb 135 72 = buffer :=
  BitVec.extractLsb'_append_eq_left

@[simp] theorem opWord_dir : (opWord op dir present start count buffer).getLsbD 4 = dir.getLsbD 0 := by
  have h : (opWord op dir present start count buffer).extractLsb' 4 1 = dir :=
    (opWord_head op dir present start count buffer 4 1 (by decide)).trans
      ((BitVec.extractLsb'_append_eq_of_add_le (by decide)).trans BitVec.extractLsb'_append_eq_left)
  simpa using congrArg (BitVec.getLsbD · 0) h

@[simp] theorem opWord_present : (opWord op dir present start count buffer).getLsbD 5 = present.getLsbD 0 := by
  have h : (opWord op dir present start count buffer).extractLsb' 5 1 = present :=
    (opWord_head op dir present start count buffer 5 1 (by decide)).trans BitVec.extractLsb'_append_eq_left
  simpa using congrArg (BitVec.getLsbD · 0) h

end

/-- R97: the reserved op codes. -/
def IsReserved (op : BitVec 4) : Prop := op = 0#4 ∨ 9 ≤ op.toNat

/-- R97: the op codes of the operations are 1 to 8. -/
theorem isReserved_iff (op : BitVec 4) : IsReserved op ↔
    op ≠ 1#4 ∧ op ≠ 2#4 ∧ op ≠ 3#4 ∧ op ≠ 4#4 ∧ op ≠ 5#4 ∧ op ≠ 6#4 ∧ op ≠ 7#4 ∧ op ≠ 8#4 := by
  unfold IsReserved
  revert op; decide

theorem wellFormed_reservedOp (op : BitVec 4) : WellFormed (.reservedOp op) ↔ IsReserved op := by
  simp only [WellFormed, Instr.wf, Bool.or_eq_true, decide_eq_true_eq]
  rfl

/-- R98: what a record holds beside a reserved op code is not looked at. -/
theorem decodeOp_reserved {r : BitVec 136} {op : BitVec 4} (hop : IsReserved op) (h : r.extractLsb 3 0 = op) :
    decodeOp r = .reservedOp op := by
  obtain ⟨h1, h2, h3, h4, h5, h6, h7, h8⟩ := (isReserved_iff op).1 hop
  simp only [decodeOp, h, h1, h2, h3, h4, h5, h6, h7, h8, if_false]

theorem decodeOp_rwBlocks (dir present : BitVec 1) (start count : Word) (buffer : Addr) :
    decodeOp (opWord 7 dir present start count buffer) =
      .rwBlocks (if present.getLsbD 0 then some buffer else none) start count (if dir.getLsbD 0 then .write else .read) := by
  simp only [decodeOp, opWord_op, opWord_start, opWord_count, opWord_buffer, opWord_dir, opWord_present]
  rfl

theorem decodeOp_formatBlocks (start count : Word) : decodeOp (opWord 8 0 0 start count 0) = .formatBlocks start count := by
  simp only [decodeOp, opWord_op, opWord_start, opWord_count]
  rfl

/-- R97: an operation's record decodes to it. -/
theorem decodeOp_operationForm {rca : BitVec 16} {i : Instr} (hwf : WellFormed i) (hform : commandForm rca i = none) :
    decodeOp (operationForm i) = i := by
  cases i
  case allocateDevice | freeDevice | initialDevice | inactivateDevice | detect | toNormal => rfl
  case rwBlocks buffer start count dir =>
    refine (decodeOp_rwBlocks ..).trans ?_
    congr 1
    · cases buffer <;> simp
    · cases dir <;> simp
  case formatBlocks start count => exact decodeOp_formatBlocks start count
  case reservedOp op => exact decodeOp_reserved ((wellFormed_reservedOp op).1 hwf) (opWord_op ..)
  all_goals cases hform

theorem decodeOp_wellFormed (r : BitVec 136) : WellFormed (decodeOp r) := by
  simp only [decodeOp]
  generalize (if r.getLsbD 5 then some (r.extractLsb 135 72) else none) = buffer
  generalize (if r.getLsbD 4 then Direction.write else Direction.read) = dir
  split_ifs
  case neg h1 h2 h3 h4 h5 h6 h7 h8 =>
    exact (wellFormed_reservedOp _).2 ((isReserved_iff _).2 ⟨h1, h2, h3, h4, h5, h6, h7, h8⟩)
  all_goals rfl

/-! ## The CMD6 and ACMD6 arguments (R90, R93) -/

/-- R90: the group and the index that a CMD6 argument can hold. -/
structure Cmd6InRange (g i : Nat) : Prop where
  one_le : 1 ≤ g
  le_six : g ≤ 6
  index : i ≤ 15

theorem wellFormed_cmd6 (m : SwitchMode) (g i : Nat) : WellFormed (.cmd6 m g i) ↔ Cmd6InRange g i ∧ (i ≠ 15 ∨ g = 1) := by
  simp only [WellFormed, Instr.wf, Bool.and_eq_true, Bool.or_eq_true, decide_eq_true_eq]
  exact and_congr_left' ⟨fun ⟨⟨h1, h6⟩, hi⟩ => ⟨h1, h6, hi⟩, fun ⟨h1, h6, hi⟩ => ⟨⟨h1, h6⟩, hi⟩⟩

theorem wellFormed_acmd6 (w : Nat) : WellFormed (.acmd6 w) ↔ w = 1 ∨ w = 4 := by
  simp only [WellFormed, Instr.wf, Bool.or_eq_true, decide_eq_true_eq]

theorem wellFormed_acmd41 (a : Word) : WellFormed (.acmd41 a) ↔ acmd41Sent a = a := decide_eq_true_iff

/-- The low `n` bits of a word set. -/
theorem ones_getLsbD (n k : Nat) (h : n ≤ 32) : (BitVec.ofNat 32 (2 ^ n - 1)).getLsbD k = decide (k < n) := by
  rw [BitVec.getLsbD_ofNat, Nat.testBit_two_pow_sub_one, ← Bool.decide_and]
  exact decide_eq_decide.2 (by omega)

theorem switchModeBits_getLsbD (m : SwitchMode) (k : Nat) :
    (switchModeBits m).getLsbD k = (decide (k = 31) && decide (m = .switch)) := by
  cases m with
  | check => simp [switchModeBits]
  | switch =>
    show (BitVec.twoPow 32 31).getLsbD k = _
    rw [BitVec.getLsbD_twoPow]
    simp [eq_comm]

/-- R90, bits 23:0: the index stands in the requested group's field, ones in the others. -/
theorem cmd6Arg_getLsbD {m : SwitchMode} {g i k : Nat} (hk : k < 24) : (cmd6Arg m g i).getLsbD k =
    (!(decide (4 * (g - 1) ≤ k) && decide (k - 4 * (g - 1) < 4)) ||
      (decide (4 * (g - 1) ≤ k) && i.testBit (k - 4 * (g - 1)))) := by
  have hones : (0xFFFFFF#32).getLsbD k = true := (ones_getLsbD 24 k (by decide)).trans (decide_eq_true hk)
  have hfield : (0xF#32).getLsbD (k - 4 * (g - 1)) = decide (k - 4 * (g - 1) < 4) := ones_getLsbD 4 _ (by decide)
  have hwidth : k < 32 ∧ k - 4 * (g - 1) < 32 ∧ k ≠ 31 := by omega
  simp only [cmd6Arg, BitVec.getLsbD_or, BitVec.getLsbD_and, BitVec.getLsbD_not, BitVec.getLsbD_shiftLeft, BitVec.getLsbD_ofNat,
    switchModeBits_getLsbD, hones, hfield]
  by_cases h : 4 * (g - 1) ≤ k
  · simp [hwidth, h, Nat.not_lt.mpr h]
  · simp [hwidth, h]
    omega

/-- A number of one hexadecimal digit has no bit from 4 on. -/
theorem testBit_of_le_fifteen {i k : Nat} (hi : i ≤ 15) (hk : 4 ≤ k) : i.testBit k = false :=
  Nat.testBit_lt_two_pow <| calc
    i < 2 ^ 4 := by omega
    _ ≤ 2 ^ k := Nat.pow_le_pow_right (by decide) hk

/-- R90: the argument's mode bit is read back. -/
theorem cmd6Mode_cmd6Arg {m : SwitchMode} {g i : Nat} (h : Cmd6InRange g i) : cmd6Mode (cmd6Arg m g i) = m := by
  have hg := h.le_six
  have hbit : (cmd6Arg m g i).getLsbD 31 = decide (m = .switch) := by
    have hones : (0xFFFFFF#32).getLsbD 31 = false := rfl
    simp only [cmd6Arg, BitVec.getLsbD_or, BitVec.getLsbD_and, BitVec.getLsbD_shiftLeft, BitVec.getLsbD_ofNat,
      switchModeBits_getLsbD, hones, testBit_of_le_fifteen h.index (show 4 ≤ 31 - 4 * (g - 1) by omega)]
    simp
  rw [cmd6Mode, hbit]
  cases m <;> rfl

theorem cmd6Nibble_testBit (arg : Word) (h j : Nat) :
    (cmd6Nibble arg h).testBit j = (decide (j < 4) && arg.getLsbD (4 * (h - 1) + j)) := by
  rw [cmd6Nibble, BitVec.testBit_toNat, BitVec.getLsbD_extractLsb, BitVec.getLsbD_ushiftRight]
  simp

theorem cmd6Nibble_le (arg : Word) (g : Nat) : cmd6Nibble arg g ≤ 15 :=
  Nat.le_of_lt_succ (BitVec.isLt (arg >>> (4 * (g - 1)) |>.extractLsb 3 0))

theorem cmd6Nibble_cmd6Arg_same {m : SwitchMode} {g i : Nat} (h : Cmd6InRange g i) : cmd6Nibble (cmd6Arg m g i) g = i := by
  have hg := h.le_six
  refine Nat.eq_of_testBit_eq fun j => ?_
  rw [cmd6Nibble_testBit]
  by_cases hj : j < 4
  · simp [cmd6Arg_getLsbD (show 4 * (g - 1) + j < 24 by omega), hj]
  · simp [hj, testBit_of_le_fifteen h.index (Nat.not_lt.mp hj)]

/-- R90: every group but the requested one holds 0xF, "no change". -/
theorem cmd6Nibble_cmd6Arg_other {m : SwitchMode} {g i h : Nat} (hr : Cmd6InRange g i) (h1 : 1 ≤ h) (h6 : h ≤ 6)
    (hne : h ≠ g) : cmd6Nibble (cmd6Arg m g i) h = 15 := by
  have hg := hr.one_le
  refine Nat.eq_of_testBit_eq fun j => ?_
  rw [cmd6Nibble_testBit, show 15 = 2 ^ 4 - 1 by rfl, Nat.testBit_two_pow_sub_one]
  by_cases hj : j < 4
  · rw [cmd6Arg_getLsbD (by omega)]
    by_cases hle : 4 * (g - 1) ≤ 4 * (h - 1) + j
    · have habove : 4 ≤ 4 * (h - 1) + j - 4 * (g - 1) := by omega
      simp [hj, habove]
    · simp [hj, hle]
  · simp [hj]

/-- R90, log 18: index 15 leaves every group unchanged, whichever group it is written with. -/
theorem cmd6Arg_fifteen (m : SwitchMode) {g : Nat} (h1 : 1 ≤ g) (h6 : g ≤ 6) : cmd6Arg m g 15 = cmd6Arg m 1 15 := by
  simp only [cmd6Arg, BitVec.or_assoc]
  congr 1
  interval_cases g <;> rfl

/-- The argument is CMD6's for the index that it holds in group `g`: what the decoder looks for, group by group. -/
abbrev SpelledWith (arg : Word) (g : Nat) : Prop := arg = cmd6Arg (cmd6Mode arg) g (cmd6Nibble arg g)

/-- Only an index of 15 is spelled with more than one group. -/
theorem spelledWith_cmd6Arg {m : SwitchMode} {g i h : Nat} (hr : Cmd6InRange g i) (h1 : 1 ≤ h) (h6 : h ≤ 6) :
    SpelledWith (cmd6Arg m g i) h ↔ h = g ∨ i = 15 := by
  rw [SpelledWith, cmd6Mode_cmd6Arg hr]
  by_cases hne : h = g
  · subst hne
    simp [cmd6Nibble_cmd6Arg_same hr]
  · rw [cmd6Nibble_cmd6Arg_other hr h1 h6 hne]
    constructor
    · intro heq
      have hnibble := congrArg (cmd6Nibble · g) heq
      rw [cmd6Nibble_cmd6Arg_same hr, cmd6Nibble_cmd6Arg_other ⟨h1, h6, le_rfl⟩ hr.one_le hr.le_six (Ne.symm hne)] at hnibble
      exact .inr hnibble
    · rintro (rfl | rfl)
      · exact absurd rfl hne
      · rw [cmd6Arg_fifteen m hr.one_le hr.le_six, cmd6Arg_fifteen m h1 h6]

/-- R93: an ACMD6 argument holds 0 in groups 5 and 6, and a CMD6 argument 0xF in one of them: no argument is both (log 3). -/
theorem cmd6Arg_ne_acmd6Arg {m : SwitchMode} {g i : Nat} (hr : Cmd6InRange g i) (w : Nat) : cmd6Arg m g i ≠ acmd6Arg w := by
  intro heq
  have hzero : cmd6Nibble (acmd6Arg w) 5 = 0 ∧ cmd6Nibble (acmd6Arg w) 6 = 0 := by
    unfold acmd6Arg
    split <;> exact ⟨rfl, rfl⟩
  obtain ⟨h5, h6⟩ := heq ▸ hzero
  by_cases hg : g = 5
  · rw [cmd6Nibble_cmd6Arg_other hr (by decide) (by decide) (show 6 ≠ g by omega)] at h6
    cases h6
  · rw [cmd6Nibble_cmd6Arg_other hr (by decide) (by decide) (show 5 ≠ g by omega)] at h5
    cases h5

/-! ## Index 6 -/

/-- The decoder's search for the group of a CMD6 argument. -/
def spelledGroup (arg : Word) : Option Nat :=
  [1, 2, 3, 4, 5, 6].find? fun g => decide (SpelledWith arg g)

theorem spelledGroup_some {arg : Word} {g : Nat} (h : spelledGroup arg = some g) : 1 ≤ g ∧ g ≤ 6 ∧ SpelledWith arg g := by
  have hrange : ∀ h ∈ [1, 2, 3, 4, 5, 6], 1 ≤ h ∧ h ≤ 6 := by decide
  obtain ⟨h1, h6⟩ := hrange g (List.mem_of_find?_eq_some h)
  have hspelled := List.find?_some h
  exact ⟨h1, h6, of_decide_eq_true hspelled⟩

theorem spelledGroup_of_one {arg : Word} (h : SpelledWith arg 1) : spelledGroup arg = some 1 :=
  List.find?_cons_of_pos (decide_eq_true h)

theorem spelledGroup_cmd6Arg {m : SwitchMode} {g i : Nat} (hr : Cmd6InRange g i) (hspelt : i ≠ 15 ∨ g = 1) :
    spelledGroup (cmd6Arg m g i) = some g := by
  by_cases h1 : g = 1
  · subst h1
    exact spelledGroup_of_one ((spelledWith_cmd6Arg hr le_rfl (by decide)).2 (.inl rfl))
  · have hi : i ≠ 15 := hspelt.resolve_right h1
    have hmem : g ∈ [1, 2, 3, 4, 5, 6] := by
      obtain ⟨hg1, hg6, -⟩ := hr
      interval_cases g <;> decide
    cases hfound : spelledGroup (cmd6Arg m g i) with
    | none =>
      have hspelled := (spelledWith_cmd6Arg (m := m) hr hr.one_le hr.le_six).2 (.inl rfl)
      exact absurd (decide_eq_true hspelled) (List.find?_eq_none.1 hfound g hmem)
    | some h =>
      obtain ⟨hh1, hh6, hh⟩ := spelledGroup_some hfound
      rw [((spelledWith_cmd6Arg hr hh1 hh6).1 hh).resolve_right hi]

theorem decodeIndex6_acmd6 {w : Nat} (h : w = 1 ∨ w = 4) : decodeIndex6 (acmd6Arg w) = .ok (.acmd6 w) := by
  obtain rfl | rfl := h <;> rfl

/-- The three forms of index 6: the two ACMD6 arguments, else CMD6's. -/
theorem decodeIndex6_eq {arg : Word} (h1 : arg ≠ acmd6Arg 1) (h4 : arg ≠ acmd6Arg 4) : decodeIndex6 arg =
    (spelledGroup arg).elim (.error (.badArgument 6#6)) fun g => .ok (.cmd6 (cmd6Mode arg) g (cmd6Nibble arg g)) := by
  rw [decodeIndex6, if_neg h1, if_neg h4]
  unfold spelledGroup
  generalize List.find? _ _ = found
  cases found <;> rfl

theorem decodeIndex6_cmd6Arg {m : SwitchMode} {g i : Nat} (hr : Cmd6InRange g i) (hspelt : i ≠ 15 ∨ g = 1) :
    decodeIndex6 (cmd6Arg m g i) = .ok (.cmd6 m g i) := by
  rw [decodeIndex6_eq (cmd6Arg_ne_acmd6Arg hr 1) (cmd6Arg_ne_acmd6Arg hr 4), spelledGroup_cmd6Arg hr hspelt, Option.elim_some,
    cmd6Mode_cmd6Arg hr, cmd6Nibble_cmd6Arg_same hr]

/-! ## The rows of the command map (R87) -/

theorem frameOf_index (index : BitVec 6) (arg : Word) : (frameOf index arg).extractLsb 45 40 = index := by
  rw [frameOf_eq_frameFields, frameFields_index]

theorem frameOf_arg (index : BitVec 6) (arg : Word) : (frameOf index arg).extractLsb 39 8 = arg := by
  rw [frameOf_eq_frameFields, frameFields_arg]

/-- R80: the framer's start, transmission and stop bits are those the decoder asks for. -/
theorem decode_frameOf (index : BitVec 6) (arg : Word) :
    decode (.frame (frameOf index arg)) = decodeIndexed (frameOf index arg) index arg := by
  have hdirection : (frameOf index arg).extractLsb 47 46 = 1#2 := by rw [frameOf_eq_frameFields, frameFields_direction]
  have hstop : (frameOf index arg).getLsbD 0 = true := by rw [frameOf_eq_frameFields, frameFields_stop]
  rw [decode, decodeFrame, if_neg (not_not_intro hdirection), if_neg (ne_true_of_eq_false · hstop), frameOf_index, frameOf_arg]

/-- R88: below the RCA the argument is 0. -/
theorem rca16_low (rca : BitVec 16) : (rca16 rca).extractLsb' 0 16 = 0#16 := BitVec.extractLsb'_append_eq_right

theorem decodeAddressed_rca16 (index : BitVec 6) (rca : BitVec 16) (i : Instr) :
    decodeAddressed (frameOf index (rca16 rca)) i = .ok i := by
  refine if_pos ?_
  rw [frameOf_eq_frameFields]
  exact (frameFields_arg_low _ _ _ _ 16 (by decide)).trans (rca16_low rca)

/-- R88: a word whose low half is 0 is the argument of the RCA in its high half. -/
theorem rca16_of_low {arg : Word} (h : arg.extractLsb' 0 16 = 0#16) : ∃ rca, rca16 rca = arg := by
  refine ⟨arg.extractLsb' 16 16, ?_⟩
  rw [rca16, ← h]
  exact BitVec.extractLsb'_append_extractLsb'_eq_extractLsb' (w := 32) rfl |>.trans BitVec.extractLsb'_eq_self

/-! ## What the decoder reads back -/

/-- R190: a CMD7 argument other than 0 selects. -/
theorem decode_select {rca : BitVec 16} (h : rca ≠ 0#16) : decode (.frame (frameOf 7#6 (rca16 rca))) = .ok (.cmd7 true) := by
  have hne : rca16 rca ≠ 0#32 := (rca16_eq_zero rca).not.2 h
  rw [decode_frameOf]
  refine (decodeAddressed_rca16 7#6 rca _).trans ?_
  rw [decide_eq_true hne]

theorem decode_deselect : decode (.frame (frameOf 7#6 0#32)) = .ok (.cmd7 false) := by
  rw [frame_deselect]
  rfl

/-- R87: a command's frame decodes to it, but for the select at RCA 0. -/
theorem decode_commandForm {rca : BitVec 16} {i : Instr} {index : BitVec 6} {arg : Word} (hwf : WellFormed i)
    (hsel : i = .cmd7 true → rca ≠ 0#16) (hform : commandForm rca i = some (index, arg)) :
    decode (.frame (frameOf index arg)) = .ok i := by
  have hrow := decode_frameOf index arg
  cases i <;> cases hform
  case cmd0 => rw [frame_cmd0]; rfl
  case cmd2 => rw [frame_cmd2]; rfl
  case cmd3 => rw [frame_cmd3]; rfl
  case cmd6 m g k =>
    obtain ⟨hr, hspelt⟩ := (wellFormed_cmd6 m g k).1 hwf
    exact hrow.trans (decodeIndex6_cmd6Arg hr hspelt)
  case cmd7 sel =>
    cases sel with
    | false => exact decode_deselect
    | true => exact decode_select (hsel rfl)
  case cmd8 => rw [frame_cmd8]; rfl
  case cmd11 => rw [frame_cmd11]; rfl
  case cmd12 => rw [frame_cmd12]; rfl
  case cmd38 => rw [frame_cmd38]; rfl
  case acmd51 => rw [frame_cmd51]; rfl
  case cmd9 | cmd10 | cmd13 | cmd15 | cmd55 => exact hrow.trans (decodeAddressed_rca16 _ rca _)
  case cmd16 | cmd17 | cmd18 | cmd24 | cmd25 | cmd32 | cmd33 => exact hrow
  case acmd6 w => exact hrow.trans (decodeIndex6_acmd6 ((wellFormed_acmd6 w).1 hwf))
  case acmd41 a =>
    have hsent : acmd41Sent a = a := (wellFormed_acmd41 a).1 hwf
    rw [hsent] at hrow ⊢
    exact hrow.trans (if_pos hsent)

/-- Settles O1: a command by the row of its index (`decode_commandForm`), an operation by its record (`decodeOp_operationForm`). -/
theorem decodingAnEncodingGivesTheInstruction : Obligations.DecodingAnEncodingGivesTheInstruction := by
  unfold Obligations.DecodingAnEncodingGivesTheInstruction
  refine ⟨fun rca i hwf hsel => ?_, decode_deselect, fun rca m g h1 h6 => ?_⟩
  · unfold encode
    cases hform : commandForm rca i with
    | none => exact congrArg Except.ok (decodeOp_operationForm hwf hform)
    | some form => exact decode_commandForm hwf hsel hform
  · show decode (.frame (frameOf 6#6 (cmd6Arg m g 15))) = _
    rw [decode_frameOf, cmd6Arg_fifteen m h1 h6]
    exact decodeIndex6_cmd6Arg ⟨le_rfl, by decide, le_rfl⟩ (.inr rfl)

/-! ## What the decoder accepts (R87, R95) -/

/-- Whatever `d` reads from the frame `f` is a well-formed instruction whose command form has the frame's index and argument. -/
def ReadsForms (f : BitVec 48) (d : Except DecodeError Instr) : Prop :=
  ∀ i, d = .ok i → WellFormed i ∧ ∃ rca, commandForm rca i = some (f.extractLsb 45 40, f.extractLsb 39 8)

section

variable {f : BitVec 48} {i : Instr} {index : BitVec 6}

theorem ReadsForms.error (e : DecodeError) : ReadsForms f (.error e) := nofun

theorem ReadsForms.ite {c : Prop} [Decidable c] {d e : Except DecodeError Instr} (hd : c → ReadsForms f d)
    (he : ReadsForms f e) : ReadsForms f (if c then d else e) := by
  split
  case isTrue h => exact hd h
  case isFalse => exact he

theorem ReadsForms.ok (rca : BitVec 16) (hindex : f.extractLsb 45 40 = index) (hwf : WellFormed i)
    (hform : commandForm rca i = some (index, f.extractLsb 39 8)) : ReadsForms f (.ok i) := by
  intro j hj
  cases hj
  exact ⟨hwf, rca, hindex ▸ hform⟩

/-- A row that fixes the whole frame. -/
theorem ReadsForms.fixed {fixed : BitVec 48} (hwf : WellFormed i)
    (hform : commandForm 0 i = some (fixed.extractLsb 45 40, fixed.extractLsb 39 8)) : ReadsForms f (decodeFixed f fixed i) :=
  .ite (fun h => .ok 0 rfl hwf (h ▸ hform)) (.error _)

/-- A row whose argument is an RCA (R88): the frame holds the RCA in bits 39:24 and 0 below it. -/
theorem ReadsForms.addressed (hindex : f.extractLsb 45 40 = index) (hwf : WellFormed i)
    (hform : ∀ rca, rca16 rca = f.extractLsb 39 8 → commandForm rca i = some (index, rca16 rca)) :
    ReadsForms f (decodeAddressed f i) := by
  refine .ite (fun h => ?_) (.error _)
  have hlow : (f.extractLsb 39 8).extractLsb' 0 16 = 0#16 := by
    rw [← h]
    refine BitVec.eq_of_getLsbD_eq fun k hk => ?_
    rw [BitVec.getLsbD_extractLsb', BitVec.getLsbD_extractLsb, BitVec.getLsbD_extractLsb]
    simp only [Nat.zero_add, hk, decide_true, Bool.true_and]
    rw [decide_eq_true (by omega), Bool.true_and]
  obtain ⟨rca, hrca⟩ := rca16_of_low hlow
  exact .ok rca hindex hwf (hrca ▸ hform rca hrca)

end

/-- R190: the select has the argument of an RCA other than 0, the deselect the argument 0. -/
theorem commandForm_cmd7 {rca : BitVec 16} {arg : Word} (h : rca16 rca = arg) :
    commandForm rca (.cmd7 (decide (arg ≠ 0#32))) = some (7#6, rca16 rca) := by
  subst h
  by_cases hzero : rca16 rca = 0#32 <;> simp [commandForm, hzero]

/-- R90, log 18: the group the decoder finds for an index of 15 is 1. -/
theorem spelledGroup_fifteen {arg : Word} {g : Nat} (h : spelledGroup arg = some g) (h15 : cmd6Nibble arg g = 15) : g = 1 := by
  obtain ⟨h1, h6, hspelled⟩ := spelledGroup_some h
  have hr : Cmd6InRange g 15 := ⟨h1, h6, le_rfl⟩
  have harg : arg = cmd6Arg (cmd6Mode arg) g 15 := by rw [← h15]; exact hspelled
  have hone : SpelledWith arg 1 := by
    rw [harg]
    exact (spelledWith_cmd6Arg hr le_rfl (by decide)).2 (.inr rfl)
  exact (Option.some.inj ((spelledGroup_of_one hone).symm.trans h)).symm

theorem decodeIndex6_readsForms {f : BitVec 48} (h : f.extractLsb 45 40 = 6#6) :
    ReadsForms f (decodeIndex6 (f.extractLsb 39 8)) := by
  by_cases h1 : f.extractLsb 39 8 = acmd6Arg 1
  · rw [h1]
    exact .ok 0 h rfl (by rw [h1]; rfl)
  by_cases h4 : f.extractLsb 39 8 = acmd6Arg 4
  · rw [h4]
    exact .ok 0 h rfl (by rw [h4]; rfl)
  rw [decodeIndex6_eq h1 h4]
  cases hfound : spelledGroup (f.extractLsb 39 8) with
  | none => exact .error _
  | some g =>
    obtain ⟨hg1, hg6, hspelled⟩ := spelledGroup_some hfound
    refine .ok 0 h ((wellFormed_cmd6 _ _ _).2 ⟨⟨hg1, hg6, cmd6Nibble_le _ _⟩, ?_⟩) (by rw [commandForm, ← hspelled])
    exact (em (cmd6Nibble _ g = 15)).symm.imp id (spelledGroup_fifteen hfound)

/-- R87: each row of the command map reads its own form; the rows stand in the order of their indices. -/
theorem decodeIndexed_readsForms (f : BitVec 48) :
    ReadsForms f (decodeIndexed f (f.extractLsb 45 40) (f.extractLsb 39 8)) := by
  unfold decodeIndexed
  exact
    .ite (fun _ => .fixed rfl rfl) <|
    .ite (fun _ => .fixed rfl rfl) <|
    .ite (fun _ => .fixed rfl rfl) <|
    .ite decodeIndex6_readsForms <|
    .ite (fun h => .addressed h rfl fun _ => commandForm_cmd7) <|
    .ite (fun _ => .fixed rfl rfl) <|
    .ite (fun h => .addressed h rfl fun _ _ => rfl) <|
    .ite (fun h => .addressed h rfl fun _ _ => rfl) <|
    .ite (fun _ => .fixed rfl rfl) <|
    .ite (fun _ => .fixed rfl rfl) <|
    .ite (fun h => .addressed h rfl fun _ _ => rfl) <|
    .ite (fun h => .addressed h rfl fun _ _ => rfl) <|
    .ite (fun h => .ok 0 h rfl rfl) <|
    .ite (fun h => .ok 0 h rfl rfl) <|
    .ite (fun h => .ok 0 h rfl rfl) <|
    .ite (fun h => .ok 0 h rfl rfl) <|
    .ite (fun h => .ok 0 h rfl rfl) <|
    .ite (fun h => .ok 0 h rfl rfl) <|
    .ite (fun h => .ok 0 h rfl rfl) <|
    .ite (fun _ => .fixed rfl rfl) <|
    .ite (fun h => .ite (fun hsent => .ok 0 h ((wellFormed_acmd41 _).2 hsent) (by rw [commandForm, hsent])) (.error _)) <|
    .ite (fun _ => .fixed rfl rfl) <|
    .ite (fun h => .addressed h rfl fun _ _ => rfl) (.error _)

theorem decodeFrame_readsForms (f : BitVec 48) : ReadsForms f (decodeFrame f) :=
  .ite (fun _ => .error _) (.ite (fun _ => .error _) (decodeIndexed_readsForms f))

theorem decode_wellFormed {w : RequestWord} {i : Instr} (h : decode w = .ok i) : WellFormed i := by
  cases w with
  | frame f => exact (decodeFrame_readsForms f i h).1
  | op r =>
    cases h
    exact decodeOp_wellFormed r

/-- Settles O2: row by row of the command map (`decodeIndexed_readsForms`), and for the records `decodeOp_wellFormed`. -/
theorem decodedFramesAreCommandForms : Obligations.DecodedFramesAreCommandForms := by
  unfold Obligations.DecodedFramesAreCommandForms
  exact ⟨fun _ _ h => decode_wellFormed h, fun f i h => (decodeFrame_readsForms f i h).2⟩

/-- Settles O3: the decoder is run on each word. -/
theorem writtenOutWordsDecode : Obligations.WrittenOutWordsDecode := by
  unfold Obligations.WrittenOutWordsDecode
  exact ⟨rfl, rfl, rfl, rfl, rfl, rfl, rfl, rfl, rfl, rfl, rfl, rfl, rfl⟩

end Sys2Proof.Machine

/-! Requests at the port of an idle block (30_encoding.md R97, R98; 70_reset_and_hazards.md R351): reserved op codes, and every
request while no Card is allocated. -/

namespace Sys2Proof.Machine

/-! ## The two call modes (R180) -/

/-- What an idle block runs: an operation and a reserved op code whatever the mode of the request, a command in execute mode. -/
theorem step_execute {s : State} {r : Request} {i : Instr} (hidle : s.control = .idle) (hr : s.request = some r)
    (hd : decode r.word = .ok i) (hmode : (r.hostSupplied || !hasCallModes i) = true) :
    step s = exec i (s.takeRequest r) := by
  simp only [step, fetch, hr, hidle, hd, hmode, ne_eq, not_true_eq_false, if_false, if_true]

theorem step_describe {s : State} {r : Request} {i : Instr} (hidle : s.control = .idle) (hr : s.request = some r)
    (hd : decode r.word = .ok i) (hhost : r.hostSupplied = false) (hmode : hasCallModes i = true) :
    step s = execDescribe i (s.takeRequest r) := by
  simp only [step, fetch, hr, hidle, hd, hhost, hmode, ne_eq, not_true_eq_false, if_false, Bool.not_true, Bool.or_self,
    Bool.false_eq_true]

/-- R180: the commands have the two call modes. -/
theorem hasCallModes_of_command {i : Instr} (hop : ¬ IsOperation i) (hres : ∀ op, i ≠ .reservedOp op) :
    hasCallModes i = true := by
  cases i
  case reservedOp op => exact absurd rfl (hres op)
  case allocateDevice | freeDevice | initialDevice | inactivateDevice | detect | toNormal | rwBlocks | formatBlocks =>
    exact absurd trivial hop
  all_goals rfl

theorem commandForm_of_hasCallModes (rca : BitVec 16) {i : Instr} (h : hasCallModes i = true) :
    ∃ form, commandForm rca i = some form := by
  cases i
  case reservedOp | allocateDevice | freeDevice | initialDevice | inactivateDevice | detect | toNormal | rwBlocks
      | formatBlocks =>
    cases h
  all_goals exact ⟨_, rfl⟩

/-- R199, R211: operands that have an encoding are in range. -/
theorem operandsInRange_of_wellFormed {i : Instr} (h : WellFormed i) : operandsInRange i = true := by
  cases i
  case cmd6 m g k =>
    obtain ⟨⟨h1, h6, hk⟩, -⟩ := (wellFormed_cmd6 m g k).1 h
    simp only [operandsInRange, h1, h6, hk, decide_true, Bool.and_self]
  case acmd6 w => exact h
  all_goals rfl

/-- R180: every command a request word can carry has a description. -/
theorem describe_of_wellFormed (c : Card) (d : Option Descriptor) {i : Instr} (hwf : WellFormed i)
    (hmode : hasCallModes i = true) : ∃ description, describe c d i = some description := by
  obtain ⟨form, hform⟩ := commandForm_of_hasCallModes c.rca hmode
  simp only [describe, operandsInRange_of_wellFormed hwf, hform]
  exact ⟨_, rfl⟩

/-! ## Reserved op codes and requests without a Card (R98, R351, log 4) -/

theorem decode_op_reserved {b : BitVec 136} {op : BitVec 4} (hop : IsReserved op) (h : b.extractLsb 3 0 = op) :
    decode (.op b) = .ok (.reservedOp op) :=
  congrArg Except.ok (decodeOp_reserved hop h)

/-- R98: a reserved op code is refused for itself. -/
theorem exec_reservedOp (op : BitVec 4) (s : State) : exec (.reservedOp op) s = .refused (.reservedOpCode op) := rfl

/-- R98, R351: an instruction requested without a Card. -/
theorem exec_unallocated {s : State} {i : Instr} (hidle : s.control = .idle) (hcard : s.card.allocated = false)
    (halloc : i ≠ .allocateDevice) (hres : ∀ op, i ≠ .reservedOp op) :
    exec i s = .next (s.begin.finish false (some .nullPtr)) := by
  obtain ⟨enter, hrun⟩ := exec_eq_runOperation s halloc hres
  rw [hrun, runOperation, if_neg (not_not_intro hidle), if_pos hcard]

theorem execDescribe_unallocated {s : State} {i : Instr} {description : Description} (hcard : s.card.allocated = false)
    (hd : describe s.card s.callerDesc i = some description) :
    execDescribe i s = .next (s.begin.finish false (some .nullPtr)) := by
  simp only [execDescribe, hd, hcard, if_true]

theorem finishes_at_once (s : State) (ok : Bool) (code : Option Result) :
    Finishes s.begin (s.begin.finish ok code) s.card ok code [] :=
  (Ran.refl s.begin).finishes ok code

/-- Settles O18: a reserved op code goes to `exec_reservedOp` in either mode; without a Card every other request but
`allocate_device` ends in `exec_unallocated` or, in describe mode, in `execDescribe_unallocated`. -/
theorem reservedAndUnallocatedRequests : Obligations.ReservedAndUnallocatedRequests := by
  unfold Obligations.ReservedAndUnallocatedRequests
  refine ⟨fun s op => exec_reservedOp op s, fun op hop b hb => ⟨decode_op_reserved hop hb, ?_⟩,
    fun s i hidle hcard halloc hres => ?_, fun s r i hidle hcard hr hhost hd hop hres => ?_⟩
  · intro s r hidle hr hword
    have hd : decode r.word = .ok (.reservedOp op) := by rw [hword, decode_op_reserved hop hb]
    rw [step_execute hidle hr hd (Bool.or_true _), exec_reservedOp]
  · exact ⟨_, exec_unallocated hidle hcard halloc hres, finishes_at_once s false _, rfl, rfl, rfl, rfl⟩
  · have hmode := hasCallModes_of_command hop hres
    obtain ⟨description, hdesc⟩ :=
      describe_of_wellFormed (s.takeRequest r).card (s.takeRequest r).callerDesc (decode_wellFormed hd) hmode
    refine ⟨_, (step_describe hidle hr hd hhost hmode).trans (execDescribe_unallocated hcard hdesc), ?_⟩
    exact ⟨rfl, rfl, rfl, rfl, rfl, rfl, rfl⟩

end Sys2Proof.Machine

/-! The codec (40_register_codec.md): the all-error mask (R121), the geometry of the two CSD layouts in exact arithmetic (R133,
R134), the version table (R138) and the layout of the CMD6 status (R139). -/

namespace Sys2Proof.Machine

/-! ## The all-error mask (R121) -/

/-- A masked word is zero when the word is clear wherever the mask is set. -/
theorem and_mask_eq_zero_iff {n : Nat} (w mask : BitVec n) :
    w &&& mask = 0#n ↔ ∀ k, mask.getLsbD k = true → w.getLsbD k = false := by
  constructor
  · intro h k hk
    have hbit : (w &&& mask).getLsbD k = false := by rw [h, BitVec.getLsbD_zero]
    rwa [BitVec.getLsbD_and, hk, Bool.and_true] at hbit
  · intro h
    refine BitVec.eq_of_getLsbD_eq fun k _ => ?_
    rw [BitVec.getLsbD_and, BitVec.getLsbD_zero]
    cases hk : mask.getLsbD k with
    | false => exact Bool.and_false _
    | true => rw [h k hk, Bool.false_and]

/-- The set bits of the mask. -/
theorem allErrMask_getLsbD (k : Nat) : allErrMask.getLsbD k = true ↔ (19 ≤ k ∧ k ≤ 31) ∨ k = 3 := by
  by_cases hk : k < 32
  · revert k; decide
  · rw [BitVec.getLsbD_of_ge _ _ (not_lt.1 hk)]
    exact iff_of_false Bool.false_ne_true (by omega)

/-- Settles O7: the test masks the word (`r1Ok_iff`), and `allErrMask_getLsbD` says where the mask is set. -/
theorem allErrorTestReadsTheFourteenMaskBits : Obligations.AllErrorTestReadsTheFourteenMaskBits := by
  unfold Obligations.AllErrorTestReadsTheFourteenMaskBits
  intro w
  calc r1Ok w = true
    _ ↔ w &&& allErrMask = 0#32 := r1Ok_iff w
    _ ↔ ∀ k, allErrMask.getLsbD k = true → w.getLsbD k = false := and_mask_eq_zero_iff w allErrMask
    _ ↔ ∀ k, (19 ≤ k ∧ k ≤ 31) ∨ k = 3 → w.getLsbD k = false :=
      forall_congr' fun k => imp_congr_left (allErrMask_getLsbD k)

/-! ## The geometry of the CSD layouts (R133, R134) -/

/-- The `C_SIZE + 1` of both layouts does not wrap. -/
theorem sizePlusOne_toNat {n : Nat} (c : BitVec n) (hn : n < 64) : (c.zeroExtend 64 + 1#64).toNat = c.toNat + 1 := by
  have hc : c.toNat + 1 < 2 ^ 64 :=
    calc c.toNat + 1
      _ ≤ 2 ^ n := c.isLt
      _ < 2 ^ 64 := Nat.pow_lt_pow_right (by decide) hn
  rw [BitVec.toNat_add, BitVec.toNat_setWidth, Nat.mod_eq_of_lt (Nat.lt_of_succ_lt hc)]
  exact Nat.mod_eq_of_lt hc

/-- R133: 12 bits of `C_SIZE` and a shift by at most 9 make at most 2 ^ 21 blocks. -/
theorem v1Count_le (f : CsdV1) : (f.cSize.toNat + 1) * 2 ^ (f.cSizeMult.toNat + 2) ≤ 2 ^ 21 := by
  have hsize : f.cSize.toNat + 1 ≤ 2 ^ 12 := f.cSize.isLt
  have hshift : f.cSizeMult.toNat + 2 ≤ 9 := by have := f.cSizeMult.isLt; omega
  calc (f.cSize.toNat + 1) * 2 ^ (f.cSizeMult.toNat + 2)
    _ ≤ 2 ^ 12 * 2 ^ 9 := Nat.mul_le_mul hsize (Nat.pow_le_pow_right (by decide) hshift)
    _ = 2 ^ 21 := by decide

theorem geometryV1_blockCount (f : CsdV1) :
    (geometryV1 f).blockCount.toNat = (f.cSize.toNat + 1) * 2 ^ (f.cSizeMult.toNat + 2) := by
  show ((f.cSize.zeroExtend 64 + 1#64) <<< (f.cSizeMult.toNat + 2)).toNat = _
  rw [BitVec.toNat_shiftLeft, sizePlusOne_toNat _ (by decide), Nat.shiftLeft_eq]
  exact Nat.mod_eq_of_lt (lt_of_le_of_lt (v1Count_le f) (by decide))

theorem geometryV1_blockCount_le (f : CsdV1) : (geometryV1 f).blockCount.toNat ≤ 2 ^ 21 :=
  (geometryV1_blockCount f).trans_le (v1Count_le f)

theorem geometryV1_blockSize (f : CsdV1) : (geometryV1 f).blockSize.toNat = 2 ^ f.common.readBlLen.toNat := by
  have hlt : f.common.readBlLen.toNat < 32 := f.common.readBlLen.isLt.trans (by decide)
  calc (geometryV1 f).blockSize.toNat
    _ = (BitVec.twoPow 32 f.common.readBlLen.toNat).toNat := congrArg BitVec.toNat (BitVec.twoPow_eq ..).symm
    _ = 2 ^ f.common.readBlLen.toNat := BitVec.toNat_twoPow_of_lt hlt

theorem geometryV1_blockSize_le (f : CsdV1) : (geometryV1 f).blockSize.toNat ≤ 2 ^ 15 :=
  (geometryV1_blockSize f).trans_le (Nat.pow_le_pow_right (by decide) (Nat.le_of_lt_succ f.common.readBlLen.isLt))

theorem geometryV1_capacity_le (f : CsdV1) : (geometryV1 f).capacity.toNat ≤ 2 ^ 36 :=
  calc (geometryV1 f).capacity.toNat
    _ = (geometryV1 f).blockCount.toNat * (geometryV1 f).blockSize.toNat := geometryV1_capacity f
    _ ≤ 2 ^ 21 * 2 ^ 15 := Nat.mul_le_mul (geometryV1_blockCount_le f) (geometryV1_blockSize_le f)
    _ = 2 ^ 36 := by decide

/-- R134: 22 bits of `C_SIZE` make at most 2 ^ 32 blocks. -/
theorem v2Count_le (f : CsdV2) : (f.cSize.toNat + 1) * 1024 ≤ 2 ^ 32 :=
  Nat.mul_le_mul_right 1024 (show f.cSize.toNat + 1 ≤ 2 ^ 22 from f.cSize.isLt)

theorem geometryV2_blockCount (f : CsdV2) : (geometryV2 f).blockCount.toNat = (f.cSize.toNat + 1) * 1024 := by
  show ((f.cSize.zeroExtend 64 + 1#64) * 1024#64).toNat = _
  rw [BitVec.toNat_mul, sizePlusOne_toNat _ (by decide)]
  exact Nat.mod_eq_of_lt (lt_of_le_of_lt (v2Count_le f) (by decide))

theorem geometryV2_blockCount_le (f : CsdV2) : (geometryV2 f).blockCount.toNat ≤ 2 ^ 32 :=
  (geometryV2_blockCount f).trans_le (v2Count_le f)

theorem geometryV2_capacity_le (f : CsdV2) : (geometryV2 f).capacity.toNat ≤ 2 ^ 41 :=
  (geometryV2_capacity f).trans_le (Nat.mul_le_mul_right 512 (geometryV2_blockCount_le f))

/-- Settles O8: the facts about the geometry of any fields of a layout, at the fields of the register. -/
theorem geometryOfBothCsdLayouts : Obligations.GeometryOfBothCsdLayouts := by
  unfold Obligations.GeometryOfBothCsdLayouts
  intro reg
  refine ⟨⟨geometryV1_blockCount _, geometryV1_blockSize _, geometryV1_capacity _, geometryV1_blockCount_le _,
    geometryV1_blockSize_le _, geometryV1_capacity_le _⟩, ?_⟩
  exact ⟨geometryV2_blockCount _, rfl, geometryV2_capacity _, geometryV2_blockCount_le _, geometryV2_capacity_le _⟩

/-! ## The version table (R138) -/

section

variable {scr : BitVec 64}

theorem versionOf_sdSpec_zero (h : scr.extractLsb 59 56 = 0#4) : versionOf scr = 0#2 := if_pos h

theorem versionOf_sdSpec_one (h : scr.extractLsb 59 56 = 1#4) : versionOf scr = 1#2 := by
  simp only [versionOf, scrFields, h]
  rfl

/-- SD_SPEC3 tells versions 2.0 and 3.0 apart. -/
theorem versionOf_sdSpec_two (h : scr.extractLsb 59 56 = 2#4) :
    versionOf scr = if scr.getLsbD 47 then 3#2 else 2#2 := by
  simp only [versionOf, scrFields, h]
  rfl

/-- The values of SD_SPEC from 3 on are read as version 3.0. -/
theorem versionOf_sdSpec_ge_three (h : 3 ≤ (scr.extractLsb 59 56).toNat) : versionOf scr = 3#2 := by
  have hne : ∀ k : BitVec 4, k.toNat < 3 → scr.extractLsb 59 56 ≠ k := fun k hk heq => by rw [heq] at h; omega
  simp only [versionOf, scrFields, hne 0#4 (by decide), hne 1#4 (by decide), hne 2#4 (by decide), if_false]

end

/-! ## The CMD6 status (R139) -/

/-- The byte pairs 12 to 2, downwards, are the bitmaps of groups 1 to 6. -/
theorem withSwitchStatus_fnSupport (c : Card) (p : List Byte) :
    (c.withSwitchStatus p).fnSupport =
      ⟨payloadByte p 12 ++ payloadByte p 13, payloadByte p 10 ++ payloadByte p 11, payloadByte p 8 ++ payloadByte p 9,
        payloadByte p 6 ++ payloadByte p 7, payloadByte p 4 ++ payloadByte p 5, payloadByte p 2 ++ payloadByte p 3⟩ := rfl

/-- The bytes 16 to 14, downwards, hold two groups each, the odd one in the low half. -/
theorem withSwitchStatus_fnCurrent (c : Card) (p : List Byte) :
    (c.withSwitchStatus p).fnCurrent =
      ⟨(payloadByte p 16).extractLsb 3 0, (payloadByte p 16).extractLsb 7 4, (payloadByte p 15).extractLsb 3 0,
        (payloadByte p 15).extractLsb 7 4, (payloadByte p 14).extractLsb 3 0, (payloadByte p 14).extractLsb 7 4⟩ := rfl

/-- Settles O9: the rows of the version table, the bytes of the SCR as `assembleScr` joins them, and the two tables of a CMD6
payload. -/
theorem payloadDecodesFollowTheirTables : Obligations.PayloadDecodesFollowTheirTables := by
  unfold Obligations.PayloadDecodesFollowTheirTables
  refine ⟨fun scr => ⟨versionOf_sdSpec_zero, versionOf_sdSpec_one, fun hspec hspec3 => ?_, fun hspec hspec3 => ?_,
    versionOf_sdSpec_ge_three⟩, fun p => rfl, fun c p => ?_⟩
  · exact (versionOf_sdSpec_two hspec).trans (if_neg (ne_true_of_eq_false hspec3))
  · exact (versionOf_sdSpec_two hspec).trans (if_pos hspec3)
  · exact ⟨withSwitchStatus_fnSupport c p, withSwitchStatus_fnCurrent c p, rfl⟩

end Sys2Proof.Machine

/-! The CRC7 of a message (41_crc7_framer.md): the framer's own bits behind a message end the register at 0 (R165), and the CRC7 is
linear in the message, so that a flipped bit changes it by the CRC7 of that bit alone (R166). -/

namespace Sys2Proof.Machine

/-! ## A message and its CRC byte (R165) -/

/-- The receiver's five message bytes are those of the command buffer. -/
theorem message_of_append_crcByte (m : BitVec 40) (crc : Byte) :
    [(m ++ crc).extractLsb 47 40, (m ++ crc).extractLsb 39 32, (m ++ crc).extractLsb 31 24, (m ++ crc).extractLsb 23 16,
      (m ++ crc).extractLsb 15 8] = bufferOf m := by
  have hbyte : ∀ start, 8 ≤ start → (m ++ crc).extractLsb' start 8 = m.extractLsb' (start - 8) 8 :=
    fun start h => BitVec.extractLsb'_append_eq_of_le h
  simp only [bufferOf, List.cons.injEq, and_true]
  exact ⟨hbyte 40 (by decide), hbyte 32 (by decide), hbyte 24 (by decide), hbyte 16 (by decide), hbyte 8 (by decide)⟩

/-- Settles O5: the message leaves its CRC7 in the register, and the register fed its own bits ends at 0. -/
theorem receiversAcceptWhatTheFramerProduces : Obligations.ReceiversAcceptWhatTheFramerProduces := by
  unfold Obligations.ReceiversAcceptWhatTheFramerProduces
  intro m
  rw [frameValid, message_of_append_crcByte, decide_eq_true_eq]
  refine Eq.trans (List.foldl_ext _ _ _ fun r k hk => ?_) (crc7_feed_itself (crc7 (bufferOf m)))
  rw [BitVec.getLsbD_append, if_pos (by simp at hk; omega)]

/-! ## The CRC7 is linear (R161) -/

/-- What the bit shifted out of the register brings back into it: the low terms of the polynomial. -/
def crc7Feedback (fb : Bool) : BitVec 7 := if fb then 0x09#7 else 0#7

theorem crc7Feedback_xor : ∀ a b : Bool, crc7Feedback (a ^^ b) = crc7Feedback a ^^^ crc7Feedback b := by decide

theorem crc7Bit_eq_feedback (c : BitVec 7) (b : Bool) :
    crc7Bit c b = (c <<< 1) ^^^ (crc7Feedback (c.getLsbD 6) ^^^ crc7Feedback b) := by
  rw [← crc7Feedback_xor, crc7Bit, crc7Feedback]
  split
  · rfl
  · exact BitVec.xor_zero.symm

theorem crc7Bit_xor (c d : BitVec 7) (a b : Bool) : crc7Bit (c ^^^ d) (a ^^ b) = crc7Bit c a ^^^ crc7Bit d b := by
  simp only [crc7Bit_eq_feedback, BitVec.shiftLeft_xor_distrib, BitVec.getLsbD_xor, crc7Feedback_xor]
  ac_rfl

/-- R161: the CRC7 of a message, as a fold over its bits, the highest first. -/
theorem crc7_bufferOf (m : BitVec 40) :
    crc7 (bufferOf m) = (List.range 40).reverse.foldl (fun c i => crc7Bit c (m.getLsbD i)) 0#7 := by
  simp [crc7, bufferOf, crc7Byte, List.range_succ]

theorem crc7_bufferOf_xor (m e : BitVec 40) :
    crc7 (bufferOf (m ^^^ e)) = crc7 (bufferOf m) ^^^ crc7 (bufferOf e) := by
  simp only [crc7_bufferOf]
  exact List.foldl_hom₂ _ (· ^^^ ·) _ _ (fun c i => crc7Bit c ((m ^^^ e).getLsbD i)) 0#7 0#7
    fun c d i => by rw [BitVec.getLsbD_xor, crc7Bit_xor]

/-! ## One flipped bit (R166) -/

/-- The generator has a constant term, so a 0 bit does not clear the register. -/
theorem crc7Bit_false_ne_zero : ∀ c : BitVec 7, c ≠ 0#7 → crc7Bit c false ≠ 0#7 := by decide

/-- Bits `n - 1` to 0 of a message whose only set bit is `k`, fed to `c`: bit `k` sets a clear register, and nothing after it
clears the register again. -/
theorem foldl_crc7Bit_single_ne_zero (k n : Nat) (c : BitVec 7) (h : c ≠ 0#7 ∧ n ≤ k ∨ c = 0#7 ∧ k < n) :
    (List.range n).reverse.foldl (fun c i => crc7Bit c (decide (i = k))) c ≠ 0#7 := by
  induction n generalizing c with
  | zero => simpa using h
  | succ n ih =>
    rw [List.range_succ, List.reverse_append]
    refine ih (crc7Bit c (decide (n = k))) ?_
    obtain ⟨hc, hn⟩ | ⟨rfl, hn⟩ := h
    · rw [decide_eq_false (by omega)]
      exact .inl ⟨crc7Bit_false_ne_zero c hc, by omega⟩
    · obtain hk | rfl := Nat.lt_succ_iff_lt_or_eq.mp hn
      · rw [decide_eq_false (by omega)]
        exact .inr ⟨rfl, hk⟩
      · rw [decide_eq_true rfl]
        exact .inl ⟨by decide, le_rfl⟩

/-- R166: the generator divides no single term. -/
theorem crc7_single_bit_ne_zero (k : Nat) (hk : k < 40) : crc7 (bufferOf (1#40 <<< k)) ≠ 0#7 := by
  have hbit : ∀ i, (1#40 <<< k).getLsbD i = decide (i = k) := fun i =>
    (BitVec.getLsbD_twoPow k i).trans (by simp [hk, eq_comm])
  simp only [crc7_bufferOf, hbit]
  exact foldl_crc7Bit_single_ne_zero k 40 0#7 (.inr ⟨rfl, hk⟩)

/-- Settles O6: the two CRC7s differ by the CRC7 of the flipped bit alone. -/
theorem flippingAnyMessageBitChangesTheCrc : Obligations.FlippingAnyMessageBitChangesTheCrc := by
  unfold Obligations.FlippingAnyMessageBitChangesTheCrc
  intro m k hk hsame
  have hxor : crc7 (bufferOf m) ^^^ crc7 (bufferOf (1#40 <<< k)) = crc7 (bufferOf m) ^^^ 0#7 := by
    rw [← crc7_bufferOf_xor, hsame, BitVec.xor_zero]
  exact crc7_single_bit_ne_zero k hk ((BitVec.xor_right_inj _).mp hxor)

end Sys2Proof.Machine

/-! A directly requested command (42_command_controllers.md): its steps lead to the return of its controller (`RunsTo`), which ends
the request. `Laws/Summary.lean` gives that return for every controller but SendIfCond (R182), whose loop is summed up here. -/

namespace Sys2Proof.Machine

/-! ## SendIfCond's loop (R182) -/

/-- SendIfCond with `n` attempts left, `last` being the failure of the one before. -/
def sendIfCond : Nat → Result → State → State × Result
  | 0, last, s => (s, last)
  | n + 1, _, s =>
    let p := sendIfCondAttempt s
    if p.2 = .well then p else sendIfCond n p.2 p.1

theorem sendIfCond_well (n : Nat) (last : Result) {s : State} (h : ifCondResult s = .well) :
    sendIfCond (n + 1) last s = sendIfCondAttempt s := if_pos ((sendIfCondAttempt_result s).trans h)

theorem sendIfCond_failed (n : Nat) (last : Result) {s : State} (h : ifCondResult s ≠ .well) :
    sendIfCond (n + 1) last s = sendIfCond n (ifCondResult s) (sendIfCondAttempt s).1 := by
  rw [← sendIfCondAttempt_result] at h ⊢
  exact if_neg h

/-- The steps of attempt `k` of SendIfCond: the return, or the next attempt. -/
theorem Steps.ifCondAttempt {k : Nat} (last : Result) (K : List Frame) {s : State} (h : s.request = none)
    (hk : k ≤ s.params.cmd8MaxAttempts) :
    (ifCondResult s = .well → Steps (s.goto (.ifCondAttempt k last) K) ((sendIfCondAttempt s).1.giveBack .well K)) ∧
    (ifCondResult s ≠ .well → Steps (s.goto (.ifCondAttempt k last) K)
      ((sendIfCondAttempt s).1.goto (.ifCondAttempt (k + 1) (ifCondResult s)) K)) := by
  have hrun := run_ifCondAttempt k last K s h hk
  rw [ifCondReturn, sendIfCondAttempt_result] at hrun
  exact ⟨fun hw => by rwa [if_pos hw] at hrun, fun hw => by rwa [if_neg hw] at hrun⟩

/-- The steps of SendIfCond from attempt `k` on, with `n` attempts left. -/
theorem run_sendIfCond {n k : Nat} (last : Result) (K : List Frame) {s : State} (h : s.request = none)
    (hk : k + n = s.params.cmd8MaxAttempts + 1) :
    Steps (s.goto (.ifCondAttempt k last) K) ((sendIfCond n last s).1.giveBack (sendIfCond n last s).2 K) := by
  induction n generalizing k last s with
  | zero => exact run_ifCondAttempt_over k last K s h (by omega)
  | succ n ih =>
    obtain ⟨hwell, hfailed⟩ := Steps.ifCondAttempt last K h (show k ≤ s.params.cmd8MaxAttempts by omega)
    by_cases hw : ifCondResult s = .well
    · rw [sendIfCond_well n last hw, sendIfCondAttempt_result, hw]
      exact hwell hw
    · rw [sendIfCond_failed n last hw]
      have hran := sendIfCondAttempt_ran s
      exact (hfailed hw).trans (ih _ (hran.request.trans h) (by rw [hran.params]; omega))

/-! ## From the request to the return -/

/-- The request for `i` is admitted in `s`, and its steps lead to the return of its controller: `p` is the state it leaves and its
result. -/
def RunsTo (i : Instr) (s : State) (p : State × Result) : Prop :=
  ∃ t, exec i s = .next t ∧ Steps t (p.1.giveBack p.2 [])

section

variable {s : State} (h : Ready s)
include h

/-- A request enters the controller that its arm of the dispatch names. -/
theorem Ready.runsTo {i : Instr} {enter : List Frame → State → State} {p : State × Result}
    (hexec : exec i s = runOperation enter s)
    (hrun : s.begin.request = none → Steps (enter [] s.begin) (p.1.giveBack p.2 [])) : RunsTo i s p :=
  ⟨_, hexec.trans (runOperation_ready enter s h), hrun h.request⟩

theorem Ready.runs_cmd0 : RunsTo .cmd0 s (goIdle s.begin) := h.runsTo rfl (run_goIdle [] _)

theorem Ready.runs_cmd2 : RunsTo .cmd2 s (readCid (newCmd 2#6 0#32 .r2) s.begin) := h.runsTo rfl (run_readCid _ [] _)

theorem Ready.runs_cmd3 : RunsTo .cmd3 s (issueRca s.begin) := h.runsTo rfl (run_issueRca [] _)

theorem Ready.runs_cmd6 (m : SwitchMode) (g i : Nat) : RunsTo (.cmd6 m g i) s (selectFunction m g i s.begin) :=
  h.runsTo rfl (run_selectFunction m g i [] _)

theorem Ready.runs_cmd7 (sel : Bool) : RunsTo (.cmd7 sel) s (selectCard sel s.begin) := h.runsTo rfl (run_selectCard sel [] _)

theorem Ready.runs_cmd8 : RunsTo .cmd8 s (sendIfCond s.params.cmd8MaxAttempts .checkErr s.begin) :=
  h.runsTo rfl fun hreq => run_sendIfCond .checkErr [] hreq (Nat.add_comm _ _)

theorem Ready.runs_cmd9 : RunsTo .cmd9 s (getCsd s.begin) := h.runsTo rfl (run_getCsd [] _)

theorem Ready.runs_cmd10 : RunsTo .cmd10 s (readCid (newCmd 10#6 s.card.rcaArg .r2) s.begin) :=
  h.runsTo rfl (run_readCid _ [] _)

theorem Ready.runs_cmd11 : RunsTo .cmd11 s (switchVoltage s.begin) := h.runsTo rfl (run_switchVoltage [] _)

theorem Ready.runs_cmd12 : RunsTo .cmd12 s (stopTransmission s.begin) := h.runsTo rfl (run_stopTransmission [] _)

theorem Ready.runs_cmd13 : RunsTo .cmd13 s (getStatus s.begin) := h.runsTo rfl (run_getStatus [] _)

theorem Ready.runs_cmd15 : RunsTo .cmd15 s (goInactive s.begin) := h.runsTo rfl (run_goInactive [] _)

theorem Ready.runs_cmd16 (len : Word) : RunsTo (.cmd16 len) s (checkedExchange (newCmd 16#6 len .r1) s.begin) :=
  h.runsTo rfl (run_checked _ [] _)

theorem Ready.runs_cmd17 (a : Word) : RunsTo (.cmd17 a) s (checkedExchange (newDataCmd 17#6 a .r1 s.callerDesc) s.begin) :=
  h.runsTo rfl (run_checked _ [] _)

theorem Ready.runs_cmd18 (a : Word) : RunsTo (.cmd18 a) s (checkedExchange (newDataCmd 18#6 a .r1 s.callerDesc) s.begin) :=
  h.runsTo rfl (run_checked _ [] _)

theorem Ready.runs_cmd24 (a : Word) : RunsTo (.cmd24 a) s (checkedExchange (newDataCmd 24#6 a .r1 s.callerDesc) s.begin) :=
  h.runsTo rfl (run_checked _ [] _)

theorem Ready.runs_cmd25 (a : Word) : RunsTo (.cmd25 a) s (checkedExchange (newDataCmd 25#6 a .r1 s.callerDesc) s.begin) :=
  h.runsTo rfl (run_checked _ [] _)

theorem Ready.runs_cmd32 (a : Word) : RunsTo (.cmd32 a) s (checkedExchange (newCmd 32#6 a .r1) s.begin) :=
  h.runsTo rfl (run_checked _ [] _)

theorem Ready.runs_cmd33 (a : Word) : RunsTo (.cmd33 a) s (checkedExchange (newCmd 33#6 a .r1) s.begin) :=
  h.runsTo rfl (run_checked _ [] _)

theorem Ready.runs_cmd38 : RunsTo .cmd38 s (checkedExchange (newCmd 38#6 0#32 .r1b) s.begin) := h.runsTo rfl (run_checked _ [] _)

theorem Ready.runs_cmd55 : RunsTo .cmd55 s (appCmdPrefix s.begin) := h.runsTo rfl (run_appCmdPrefix [] _)

theorem Ready.runs_acmd6 (w : Nat) : RunsTo (.acmd6 w) s (setBusWidth w s.begin) := h.runsTo rfl (run_setBusWidth w [] _)

theorem Ready.runs_acmd41 (a : Word) : RunsTo (.acmd41 a) s (sendOpCond a s.begin) := h.runsTo rfl (run_sendOpCond a [] _)

theorem Ready.runs_acmd51 : RunsTo .acmd51 s (getScr s.begin) := h.runsTo rfl (run_getScr [] _)

end

/-! ## From the return to the end of the request -/

section

variable {i : Instr} {s : State} {p : State × Result} {r : Result}

/-- The return of the controller ends the request. -/
theorem RunsTo.completes {frames : List (BitVec 48)} {c : Card} (h : RunsTo i s p) (hs : Ready s)
    (hran : Ran s.begin p.1 frames) (hend : p.2 = r ∧ p.1.card = c) : CompletesWith i s c r frames := by
  obtain ⟨rfl, rfl⟩ := hend
  obtain ⟨t, hexec, hsteps⟩ := h
  exact ⟨t, hexec, p.1.finishCode p.2, hsteps.trans (run_returned p.2 p.1 (hran.request.trans hs.request)),
    hran.finishes _ _, hran.memorySame⟩

/-- A controller that returns before its first host-port call ends the request without one. -/
theorem RunsTo.completesSilently (h : RunsTo i s p) (hs : Ready s) (hcall : Performs none s.begin p.1)
    (hend : p.2 = r ∧ p.1.card = s.card) (hfail : r ≠ .well) : CompletesSilently i s s.card false (some r) := by
  obtain ⟨rfl, hcard⟩ := hend
  obtain ⟨t, hexec, hsteps⟩ := h
  have hfinish := hcall.finish false (some p.2)
  refine ⟨t, hexec, p.1.finish false (some p.2), ?_, ?_, fun a => by rw [(hfinish.silent rfl).1]; rfl, hfinish.trace⟩
  · rw [← decide_eq_false hfail]
    exact hsteps.trans (run_returned p.2 p.1 (hcall.request.trans hs.request))
  · exact ⟨hfinish.host, hfinish.params, hfinish.request, rfl, rfl, rfl, rfl, hcard, rfl,
      fun _ => by rw [hfinish.trace]; rfl⟩

end

/-! ## The environment a request begins in -/

section

variable (s : State)

/-! `begin` clears locals only: the host answers as in `s`. -/

@[simp] theorem nextSend_begin : nextSend s.begin = nextSend s := (sameEnv_begin s).nextSend
@[simp] theorem nextResponse_begin : nextResponse s.begin = nextResponse s := (sameEnv_begin s).nextResponse
@[simp] theorem r1Result_begin : r1Result s.begin = r1Result s := (sameEnv_begin s).r1Result
@[simp] theorem appPrefixResult_begin : appPrefixResult s.begin = appPrefixResult s := (sameEnv_begin s).appPrefixResult
@[simp] theorem statusResult_begin : statusResult s.begin = statusResult s := (sameEnv_begin s).statusResult
@[simp] theorem stopResult_begin : stopResult s.begin = stopResult s := (sameEnv_begin s).stopResult
@[simp] theorem ifCondResult_begin : ifCondResult s.begin = ifCondResult s := (sameEnv_begin s).ifCondResult
@[simp] theorem voltageAnswer_begin : s.begin.voltageAnswer = s.voltageAnswer := rfl
@[simp] theorem acquireAnswer_begin : s.begin.acquireAnswer = s.acquireAnswer := rfl
@[simp] theorem recvDataAnswer_begin : s.begin.recvDataAnswer = s.recvDataAnswer := rfl
@[simp] theorem recvDataBytes_begin (n : Nat) : s.begin.recvDataBytes n = s.recvDataBytes n := rfl
@[simp] theorem takeResponse_begin : s.begin.takeResponse = s.takeResponse.begin := rfl
@[simp] theorem takeAcquisition_begin : s.begin.takeAcquisition = s.takeAcquisition.begin := rfl

@[simp] theorem afterExchange_begin (reads : Bool) : afterExchange reads s.begin = (afterExchange reads s).begin := by
  unfold afterExchange afterFraming
  cases reads <;> cases h : s.host.framing <;> simp only [begin_host, h] <;> rfl

end

end Sys2Proof.Machine

/-! CMD8 (42_command_controllers.md R182): the attempts one by one, and the whole loop where the environment decides it. -/

namespace Sys2Proof.Machine

/-- Steps that end at another position, the payload buffer as it was: the position is reached. -/
theorem Ran.reaches {s t : State} {p q : Point} {K L : List Frame} {frames : List (BitVec 48)} (h : Ran s t frames)
    (hat : At s p K) (hne : p ≠ q) (hpayload : t.payload = s.payload) (hsteps : Steps s (t.goto q L)) :
    Reaches (step s) s q L t.card frames := by
  have hstands : Stands s (t.goto q L) q L t.card frames :=
    ⟨h.host, h.params, h.request, rfl, hpayload, h.callerDesc, rfl, h.outcome, h.frames⟩
  have hmem : MemorySame s (t.goto q L) := fun a => h.memorySame a
  generalize t.goto q L = u at hsteps hstands hmem
  cases hsteps with
  | here => exact absurd (Control.running.inj (hat.control.symm.trans hstands.control)).1 hne
  | step _ v _ hstep hrest => exact ⟨v, hstep, u, hrest, hstands, hmem⟩

/-- An attempt that its host fails has the host's error as its result. -/
theorem ifCondResult_error {s : State} {e : HostError} (h : nextSend s = .error e) : ifCondResult s = errorCode e := by
  simp only [ifCondResult, h]

/-- What an attempt leaves of the `send_command` script. -/
theorem sendIfCondAttempt_script (s : State) : (sendIfCondAttempt s).1.env.sendCommands = s.env.sendCommands.tail := by
  rw [sendIfCondAttempt_state, (exchange_sameEnv _ s).env]
  exact (afterExchange_scripts _ s).1

/-- A host that fails the `n` attempts left gets `n` frames, and the last failure is the result. -/
theorem sendIfCond_all_fail {n : Nat} {last : Result} {e : HostError} {script : List HostResult} {s : State}
    (hlast : n = 0 → last = errorCode e) (hscript : s.env.sendCommands = List.replicate n (.error e) ++ script) :
    Ran s (sendIfCond n last s).1 (List.replicate n 0x48000001AA87#48) ∧
      (sendIfCond n last s).2 = errorCode e ∧ (sendIfCond n last s).1.card = s.card := by
  induction n generalizing last s with
  | zero => exact ⟨Ran.refl s, hlast rfl, rfl⟩
  | succ n ih =>
    have hresult : ifCondResult s = errorCode e := ifCondResult_error (nextSend_script s _ _ hscript)
    have hrest : (sendIfCondAttempt s).1.env.sendCommands = List.replicate n (.error e) ++ script := by
      rw [sendIfCondAttempt_script, hscript]; rfl
    rw [sendIfCond_failed n last (hresult ▸ errorCode_ne_well e)]
    obtain ⟨hran, hend, hcard⟩ := ih (fun _ => hresult) hrest
    exact ⟨(sendIfCondAttempt_ran s).trans hran, hend, hcard.trans (sendIfCondAttempt_card s)⟩

/-- Where one attempt decides, because it succeeds or because there is no other, SendIfCond is that attempt. -/
theorem sendIfCond_once {n : Nat} (last : Result) {s : State} (hn : 1 ≤ n) (h : ifCondResult s = .well ∨ n = 1) :
    (sendIfCond n last s).1 = (sendIfCondAttempt s).1 ∧ (sendIfCond n last s).2 = ifCondResult s := by
  obtain ⟨n, rfl⟩ := Nat.exists_eq_add_of_le' hn
  by_cases hw : ifCondResult s = .well
  · rw [sendIfCond_well n last hw]
    exact ⟨rfl, sendIfCondAttempt_result s⟩
  · obtain rfl : n = 0 := by simpa [hw] using h
    rw [sendIfCond_failed 0 last hw]
    exact ⟨rfl, rfl⟩

/-- Settles O27: `Steps.ifCondAttempt` gives the attempts one by one, `sendIfCond` the whole loop. -/
theorem cmd8RetriesUpToItsBound : Obligations.Cmd8RetriesUpToItsBound := by
  unfold Obligations.Cmd8RetriesUpToItsBound
  refine ⟨fun s k last K hat => ⟨fun hover => ?_, fun hk => ?_⟩, fun s hs => ⟨?_, fun hzero => ?_, fun hpos honce => ?_, ?_⟩⟩
  · have hsteps := run_ifCondAttempt_over k last K s hat.request hover
    rw [hat.goto] at hsteps
    exact (Ran.refl s).reaches hat nofun rfl hsteps
  · obtain ⟨hwell, hfailed⟩ := Steps.ifCondAttempt last K hat.request hk
    rw [hat.goto] at hwell hfailed
    rw [← sendIfCondAttempt_card s]
    refine ⟨fun hw => ?_, fun hw => ?_⟩
    · exact (sendIfCondAttempt_ran s).reaches hat nofun (sendIfCondAttempt_payload s) (hwell hw)
    · exact (sendIfCondAttempt_ran s).reaches hat (fun he => by injection he; omega) (sendIfCondAttempt_payload s) (hfailed hw)
  · exact runOperation_ready enterSendIfCond s hs
  · have hrun := hs.runs_cmd8
    rw [hzero] at hrun
    exact hrun.completesSilently hs (.refl _) ⟨rfl, rfl⟩ nofun
  · obtain ⟨hstate, hresult⟩ := sendIfCond_once .checkErr (s := s.begin) hpos (by simpa using honce)
    refine hs.runs_cmd8.completes hs ?_ ⟨hresult.trans (ifCondResult_begin s), ?_⟩
    · rw [hstate]; exact sendIfCondAttempt_ran _
    · rw [hstate]; exact sendIfCondAttempt_card _
  · intro e script hpos hscript
    obtain ⟨hran, hend⟩ := sendIfCond_all_fail (last := .checkErr) (s := s.begin) (by omega) hscript
    exact hs.runs_cmd8.completes hs hran hend

end Sys2Proof.Machine

/-! What a request sends (42_command_controllers.md R205, R206): `SendsOnly` for each controller of `Laws/Summary.lean`; the trace of
its return extends that of every state of the run. -/

namespace Sys2Proof.Machine

/-! ## `SendsOnly` -/

/-- From `s` to `t` the host binding is as it was, and under the core's framer every command sent satisfies `P`. -/
structure SendsOnly (P : CmdReg → Prop) (s t : State) : Prop where
  host : t.host = s.host
  sends : s.host.framing = .coreCRC7 → ∀ c a, HostEvent.sendCommand c a ∈ t.trace → HostEvent.sendCommand c a ∈ s.trace ∨ P c

section

variable {P : CmdReg → Prop} {s t u : State}

theorem SendsOnly.trans (h : SendsOnly P s t) (k : SendsOnly P t u) : SendsOnly P s u where
  host := k.host.trans h.host
  sends hf c a hu := (k.sends (h.host ▸ hf) c a hu).elim (h.sends hf c a) .inr

/-- A line with no call sends nothing, nor does a call other than `send_command`. -/
theorem Performs.sendsOnly {call : Option HostEvent} (h : Performs call s t)
    (hcall : ∀ c a, call ≠ some (.sendCommand c a)) : SendsOnly P s t where
  host := h.host
  sends _ c a ht := by
    rw [h.trace, List.mem_append, Option.mem_toList] at ht
    exact .inl (ht.resolve_left (hcall c a))

theorem Performs.silent_sendsOnly (h : Performs none s t) : SendsOnly P s t := h.sendsOnly nofun

theorem SendsOnly.refl (s : State) : SendsOnly P s s := (Performs.refl s).silent_sendsOnly

/-- An exchange sends its command, framed. -/
theorem exchange_sendsOnly {c : CmdReg} (s : State) (hP : P c.framed) : SendsOnly P s (exchange c s).1 where
  host := exchange_host c s
  sends hf d a hd := by
    rw [exchange_trace c s hf, List.mem_append, List.mem_cons] at hd
    obtain hd | hd | hd := hd
    · split at hd <;> simp at hd
    · cases hd; exact .inr hP
    · exact .inl hd

/-- `try` (R13). -/
theorem SendsOnly.tryThen {p : State × Result} {k : State → State × Result} (h : SendsOnly P s p.1)
    (hk : ∀ v, SendsOnly P v (k v).1) : SendsOnly P s (tryThen p k).1 := by
  obtain ⟨-, he⟩ | ⟨-, he⟩ := tryThen_cases p k <;> rw [he]
  · exact h.trans (hk _)
  · exact h

/-! ## The controllers -/

theorem checkedExchange_sendsOnly {c : CmdReg} (s : State) (hP : P c.framed) : SendsOnly P s (checkedExchange c s).1 :=
  checkedExchange_state c s ▸ exchange_sendsOnly s hP

theorem goIdle_sendsOnly (s : State) (hP : P (newCmd 0#6 0#32 .none).framed) : SendsOnly P s (goIdle s).1 := by
  have hdrain : SendsOnly P s (hostRecvResponse (s.setCmd (newCmd 0#6 0#32 .none))) :=
    ((Performs.refl s).setCmd _).silent_sendsOnly.trans ((hostRecvResponse_performs _).sendsOnly nofun)
  exact (hdrain.trans (exchange_sendsOnly _ hP)).tryThen fun v =>
    (((Performs.refl v).setMode _).setCard _).silent_sendsOnly

theorem sendIfCond_sendsOnly (n : Nat) (last : Result) (s : State) (hP : P (newCmd 8#6 cmd8Arg .r7).framed) :
    SendsOnly P s (sendIfCond n last s).1 := by
  have hattempt (s : State) : SendsOnly P s (sendIfCondAttempt s).1 := by
    rw [sendIfCondAttempt_state]; exact exchange_sendsOnly s hP
  induction n generalizing last s with
  | zero => exact .refl s
  | succ n ih =>
    by_cases hw : ifCondResult s = .well
    · rw [sendIfCond_well n last hw]; exact hattempt s
    · rw [sendIfCond_failed n last hw]; exact (hattempt s).trans (ih _ _)

theorem appCmdPrefix_sendsOnly (s : State) (hP : P (newCmd 55#6 s.card.rcaArg .r1).framed) :
    SendsOnly P s (appCmdPrefix s).1 := by
  rw [appCmdPrefix_state]; exact exchange_sendsOnly s hP

theorem sendOpCond_sendsOnly (a : Word) (s : State) (hprefix : P (newCmd 55#6 s.card.rcaArg .r1).framed)
    (hP : P (newCmd 41#6 (acmd41Sent a) .r3).framed) : SendsOnly P s (sendOpCond a s).1 := by
  refine (appCmdPrefix_sendsOnly s hprefix).tryThen fun v => (exchange_sendsOnly v hP).tryThen fun v => ?_
  split
  · exact .refl v
  · exact ((Performs.refl v).setCard _).silent_sendsOnly

theorem readCid_sendsOnly {c : CmdReg} (s : State) (hP : P c.framed) : SendsOnly P s (readCid c s).1 :=
  (exchange_sendsOnly s hP).tryThen fun v => ((Performs.refl v).setCard _).silent_sendsOnly

theorem issueRca_sendsOnly (s : State) (hP : P (newCmd 3#6 0#32 .r6).framed) : SendsOnly P s (issueRca s).1 := by
  refine (exchange_sendsOnly s hP).tryThen fun v => ?_
  split
  · exact .refl v
  · exact ((Performs.refl v).setCard _).silent_sendsOnly

theorem checkR1_sendsOnly (s : State) : SendsOnly P s (checkR1 s).1 := by rw [checkR1_state]; exact .refl s

theorem switchVoltage_sendsOnly (s : State) (hP : P (newCmd 11#6 0#32 .r1).framed) : SendsOnly P s (switchVoltage s).1 := by
  unfold switchVoltage
  split
  · exact .refl s
  · exact (exchange_sendsOnly s hP).tryThen fun v => (checkR1_sendsOnly v).tryThen fun v =>
      ((hostSwitchVoltage_performs v).sendsOnly nofun).tryThen fun v => ((Performs.refl v).setCard _).silent_sendsOnly

theorem getCsd_sendsOnly (s : State) (hP : P (newCmd 9#6 s.card.rcaArg .r2).framed) : SendsOnly P s (getCsd s).1 := by
  refine (exchange_sendsOnly s hP).tryThen fun v => ?_
  dsimp only
  split
  · exact .refl v
  · exact ((Performs.refl v).setCard _).silent_sendsOnly

theorem selectCard_sendsOnly (sel : Bool) (s : State)
    (hP : P (newCmd 7#6 (selectArg s.card sel) (selectResponse (selectArg s.card sel))).framed) :
    SendsOnly P s (selectCard sel s).1 := by
  refine (exchange_sendsOnly s hP).tryThen fun v => ?_
  split
  · exact checkR1_sendsOnly v
  · exact .refl v

theorem getStatus_sendsOnly (s : State) (hP : P (newCmd 13#6 s.card.rcaArg .r1).framed) : SendsOnly P s (getStatus s).1 := by
  rw [getStatus_state]; exact exchange_sendsOnly s hP

theorem stopTransmission_sendsOnly (s : State) (hP : P (newCmd 12#6 0#32 .r1b).framed) :
    SendsOnly P s (stopTransmission s).1 := by
  rw [stopTransmission_state]; exact exchange_sendsOnly s hP

theorem goInactive_sendsOnly (s : State) (hP : P (newCmd 15#6 s.card.rcaArg .none).framed) :
    SendsOnly P s (goInactive s).1 :=
  (exchange_sendsOnly s hP).tryThen fun v => ((Performs.refl v).setMode _).silent_sendsOnly

theorem setBusWidth_sendsOnly (w : Nat) (s : State) (hprefix : P (newCmd 55#6 s.card.rcaArg .r1).framed)
    (hP : P (newCmd 6#6 (acmd6Arg w) .r1).framed) : SendsOnly P s (setBusWidth w s).1 := by
  unfold setBusWidth
  split
  · exact .refl s
  · exact (appCmdPrefix_sendsOnly s hprefix).tryThen fun v => checkedExchange_sendsOnly v hP

theorem acquire_sendsOnly (n : Nat) (s : State) : SendsOnly P s (acquire n s).1 :=
  ((Performs.refl s).acquire n).silent_sendsOnly

/-- The data phase of a payload read, and what is made of its bytes. -/
theorem recvPayload_sendsOnly (d : Descriptor) (card : State → Card) (s : State) :
    SendsOnly P s (tryThen (hostRecvData d s) fun v => (v.setCard (card v), .well)).1 :=
  ((hostRecvData_performs s d).sendsOnly nofun).tryThen fun v => ((Performs.refl v).setCard _).silent_sendsOnly

theorem SendsOnly.release {p : State × Result} (h : SendsOnly P s p.1) : SendsOnly P s (release p).1 :=
  h.trans ((Performs.refl p.1).setPayload none).silent_sendsOnly

theorem getScr_sendsOnly (s : State) (hprefix : P (newCmd 55#6 s.card.rcaArg .r1).framed)
    (hP : P (newDataCmd 51#6 0#32 .r1 (some (payloadDescriptor scrLen))).framed) : SendsOnly P s (getScr s).1 := by
  unfold getScr
  dsimp only
  split
  · exact acquire_sendsOnly 8 s
  · refine SendsOnly.release ((acquire_sendsOnly 8 s).trans ?_)
    refine (appCmdPrefix_sendsOnly _ (by rwa [acquire_card])).tryThen fun v => (exchange_sendsOnly v hP).tryThen fun v => ?_
    exact (checkR1_sendsOnly v).tryThen (recvPayload_sendsOnly _ fun v => v.card.withScr v.payloadBytes)

theorem selectFunction_sendsOnly (m : SwitchMode) (g i : Nat) (s : State)
    (hP : P (newDataCmd 6#6 (cmd6Arg m g i) .r1 (some (payloadDescriptor switchBlockLen))).framed) :
    SendsOnly P s (selectFunction m g i s).1 := by
  unfold selectFunction
  dsimp only
  split
  · exact .refl s
  split
  · exact acquire_sendsOnly 64 s
  · refine SendsOnly.release ((acquire_sendsOnly 64 s).trans ((exchange_sendsOnly _ hP).tryThen fun v => ?_))
    exact (checkR1_sendsOnly v).tryThen (recvPayload_sendsOnly _ fun v => v.card.withSwitchStatus v.payloadBytes)

end

/-! ## The states of a run -/

/-- With no request presented the port stays empty, and the trace only grows (R358). -/
theorem Steps.grows {s u : State} (h : Steps s u) (hreq : s.request = none) :
    u.request = none ∧ ∃ l, u.trace = l ++ s.trace := by
  induction h with
  | here s => exact ⟨hreq, [], rfl⟩
  | step s t u hstep _ ih =>
    obtain ⟨-, rfl⟩ | ⟨p, K, hat, rfl⟩ | ⟨r, i, -, hr, -⟩ := step_cases hstep
    · exact ih hreq
    · have hp := advance_performs s p K
      obtain ⟨hu, l, hl⟩ := ih (hp.request.trans hreq)
      exact ⟨hu, l ++ (callAt s p).toList, by rw [hl, hp.trace, List.append_assoc]⟩
    · cases hr.symm.trans hreq

/-- With no request presented the idle block stays as it is (R351). -/
theorem Steps.of_idle {s u : State} (h : Steps s u) (hidle : s.control = .idle) (hreq : s.request = none) : u = s := by
  induction h with
  | here s => rfl
  | step s t u hstep _ ih =>
    obtain ⟨-, rfl⟩ | ⟨p, K, hat, -⟩ | ⟨r, i, -, hr, -⟩ := step_cases hstep
    · exact ih hidle hreq
    · cases hidle.symm.trans hat.control
    · cases hr.symm.trans hreq

/-- The run of a request is a line: the trace of the controller's return extends that of each of its states. -/
theorem RunOf.trace_suffix {i : Instr} {s u : State} {p : State × Result} (h : RunOf i s u) (hp : RunsTo i s p)
    (hreq : s.request = none) : ∃ l, p.1.trace = l ++ u.trace := by
  obtain ⟨t, hexec, hsteps⟩ := h
  obtain ⟨t', hexec', hreturn⟩ := hp
  obtain rfl : t = t' := Host.Outcome.next.inj (hexec.symm.trans hexec')
  have htreq : t.request = none := (exec_performs hexec).request.trans hreq
  have hpreq : p.1.request = none := (hreturn.grows htreq).1
  have hfinish := hreturn.trans (run_returned p.2 p.1 hpreq)
  obtain hback | hon := hfinish.linear hsteps
  · obtain rfl := hback.of_idle rfl hpreq
    exact ⟨[], rfl⟩
  · exact (hon.grows (hsteps.grows htreq).1).2

/-! ## What describe mode says is what is sent -/

theorem describe_some {c : Card} {d : Option Descriptor} {i : Instr} {x : Description} (h : describe c d i = some x) :
    commandForm c.rca i = some (x.index, x.argument) ∧ responseOf c i = x.responseType := by
  unfold describe at h
  split at h
  · cases h
  · split at h <;> cases h
    next hform => exact ⟨hform, rfl⟩

/-- The command is the one described, with the descriptor of the instruction, or the CMD55 before an application command (R206). -/
def SentFor (s : State) (i : Instr) (x : Description) (c : CmdReg) : Prop :=
  (c.wire = frameOf x.index x.argument ∧ c.responseType = x.responseType ∧ c.data = attachedData s.callerDesc i) ∨
  (c.wire = frameOf 55#6 (s.card.rca ++ 0#16) ∧ c.responseType = .r1 ∧ c.data = none ∧
    ((∃ w, i = .acmd6 w) ∨ (∃ w, i = .acmd41 w) ∨ i = .acmd51))

section

variable {s : State} {i : Instr} {x : Description}

theorem sentFor_own {index : BitVec 6} {arg : Word} (hx : describe s.card s.callerDesc i = some x)
    (hform : commandForm s.card.rca i = some (index, arg)) :
    SentFor s i x (newDataCmd index arg (responseOf s.card i) (attachedData s.callerDesc i)).framed := by
  obtain ⟨hrow, htype⟩ := describe_some hx
  obtain ⟨rfl, rfl⟩ : index = x.index ∧ arg = x.argument := by simpa using hform.symm.trans hrow
  exact .inl ⟨newDataCmd_wire _ _ _ _, htype, rfl⟩

theorem sentFor_cmd55 (hi : (∃ w, i = .acmd6 w) ∨ (∃ w, i = .acmd41 w) ∨ i = .acmd51) :
    SentFor s i x (newCmd 55#6 s.card.rcaArg .r1).framed := .inr ⟨newCmd_wire _ _ _, rfl, rfl, hi⟩

/-- R205: every controller sends the command that describe mode answers, an application command after its CMD55. -/
theorem Ready.runsTo_sendsOnly (hs : Ready s) (hx : describe s.card s.callerDesc i = some x) :
    ∃ p, RunsTo i s p ∧ SendsOnly (SentFor s i x) s.begin p.1 := by
  have hown {index : BitVec 6} {arg : Word} := sentFor_own (index := index) (arg := arg) hx
  cases i with
  | cmd0 => exact ⟨_, hs.runs_cmd0, goIdle_sendsOnly _ (hown rfl)⟩
  | cmd2 => exact ⟨_, hs.runs_cmd2, readCid_sendsOnly _ (hown rfl)⟩
  | cmd3 => exact ⟨_, hs.runs_cmd3, issueRca_sendsOnly _ (hown rfl)⟩
  | cmd6 m g k => exact ⟨_, hs.runs_cmd6 m g k, selectFunction_sendsOnly m g k _ (hown rfl)⟩
  | cmd7 sel => exact ⟨_, hs.runs_cmd7 sel, selectCard_sendsOnly sel _ (hown rfl)⟩
  | cmd8 => exact ⟨_, hs.runs_cmd8, sendIfCond_sendsOnly _ _ _ (hown rfl)⟩
  | cmd9 => exact ⟨_, hs.runs_cmd9, getCsd_sendsOnly _ (hown rfl)⟩
  | cmd10 => exact ⟨_, hs.runs_cmd10, readCid_sendsOnly _ (hown rfl)⟩
  | cmd11 => exact ⟨_, hs.runs_cmd11, switchVoltage_sendsOnly _ (hown rfl)⟩
  | cmd12 => exact ⟨_, hs.runs_cmd12, stopTransmission_sendsOnly _ (hown rfl)⟩
  | cmd13 => exact ⟨_, hs.runs_cmd13, getStatus_sendsOnly _ (hown rfl)⟩
  | cmd15 => exact ⟨_, hs.runs_cmd15, goInactive_sendsOnly _ (hown rfl)⟩
  | cmd16 a => exact ⟨_, hs.runs_cmd16 a, checkedExchange_sendsOnly _ (hown rfl)⟩
  | cmd17 a => exact ⟨_, hs.runs_cmd17 a, checkedExchange_sendsOnly _ (hown rfl)⟩
  | cmd18 a => exact ⟨_, hs.runs_cmd18 a, checkedExchange_sendsOnly _ (hown rfl)⟩
  | cmd24 a => exact ⟨_, hs.runs_cmd24 a, checkedExchange_sendsOnly _ (hown rfl)⟩
  | cmd25 a => exact ⟨_, hs.runs_cmd25 a, checkedExchange_sendsOnly _ (hown rfl)⟩
  | cmd32 a => exact ⟨_, hs.runs_cmd32 a, checkedExchange_sendsOnly _ (hown rfl)⟩
  | cmd33 a => exact ⟨_, hs.runs_cmd33 a, checkedExchange_sendsOnly _ (hown rfl)⟩
  | cmd38 => exact ⟨_, hs.runs_cmd38, checkedExchange_sendsOnly _ (hown rfl)⟩
  | cmd55 => exact ⟨_, hs.runs_cmd55, appCmdPrefix_sendsOnly _ (hown rfl)⟩
  | acmd6 w =>
    exact ⟨_, hs.runs_acmd6 w, setBusWidth_sendsOnly w _ (sentFor_cmd55 (.inl ⟨w, rfl⟩)) (hown rfl)⟩
  | acmd41 a =>
    exact ⟨_, hs.runs_acmd41 a, sendOpCond_sendsOnly a _ (sentFor_cmd55 (.inr (.inl ⟨a, rfl⟩))) (hown rfl)⟩
  | acmd51 => exact ⟨_, hs.runs_acmd51, getScr_sendsOnly _ (sentFor_cmd55 (.inr (.inr rfl))) (hown rfl)⟩
  | allocateDevice | freeDevice | initialDevice | inactivateDevice | detect | toNormal | rwBlocks | formatBlocks
  | reservedOp => cases (describe_some hx).1

end

/-- Settles O23: the sent commands of a state of the run are among those of the controller's return (`RunOf.trace_suffix`), and the
controller sends the described command only (`Ready.runsTo_sendsOnly`). -/
theorem executeModeSendsWhatDescribeModeSays : Obligations.ExecuteModeSendsWhatDescribeModeSays := by
  unfold Obligations.ExecuteModeSendsWhatDescribeModeSays
  intro s u i x hs hf hx hu c a hsent
  obtain ⟨p, hp, honly⟩ := hs.runsTo_sendsOnly hx
  obtain ⟨l, hl⟩ := hu.trace_suffix hp hs.request
  have hreturned : HostEvent.sendCommand c a ∈ p.1.trace := hl ▸ List.mem_append_right l hsent
  exact (honly.sends hf c a hreturned).resolve_left List.not_mem_nil

end Sys2Proof.Machine

/-! The commands of 42_command_controllers.md one by one: what describe mode answers (R180, R205), and how each controller
completes. The laws of `Laws/` say what a controller does from the state the request begins in; `RunsTo.completes` ends the
request. -/

namespace Sys2Proof.Machine

/-! ## Describe mode -/

theorem describe_commandForm {c : Card} {i : Instr} {index : BitVec 6} {arg : Word} (d : Option Descriptor)
    (hrange : operandsInRange i = true) (hform : commandForm c.rca i = some (index, arg)) :
    describe c d i = some ⟨index, arg, responseOf c i, dataShapeOf c d i⟩ := by
  simp only [describe, hrange, hform, Bool.true_eq_false, if_false]

/-- R190: a deselect expects no response. -/
theorem selectResponse_zero : selectResponse 0#32 = .none := by decide

/-- R190: a select expects a response unless the RCA is 0. -/
theorem selectResponse_rcaArg (c : Card) : selectResponse c.rcaArg = if c.rca = 0#16 then .none else .r1 := by
  simp only [selectResponse, Card.rcaArg, rca16_high, ne_eq, ite_not]

theorem execDescribe_described {s : State} {i : Instr} {x : Description} (hcard : s.card.allocated = true)
    (hx : describe s.card s.callerDesc i = some x) :
    execDescribe i s = .next { s.begin with callerDesc := none, outcome := some ⟨true, none, some x⟩ } := by
  simp only [execDescribe, hx, hcard, Bool.true_eq_false, if_false]

/-- Settles O22: the rows are evaluated, but for CMD6's operand range (`describe_commandForm`) and CMD7's response type
(`selectResponse_rcaArg`, `selectResponse_zero`). -/
theorem describeModeGivesTheCommandMapRow : Obligations.DescribeModeGivesTheCommandMapRow := by
  unfold Obligations.DescribeModeGivesTheCommandMapRow
  refine ⟨fun c d a m g k => ?_, fun s i x hcard hx => execDescribe_described hcard hx⟩
  refine ⟨rfl, rfl, rfl, fun hg1 hg6 hk => ?_, ?_, ?_, rfl, rfl, rfl, rfl, rfl, rfl, rfl, rfl, rfl, rfl, rfl, rfl, rfl, rfl,
    rfl, rfl, rfl, rfl, rfl, rfl⟩
  · exact describe_commandForm d (by simp [operandsInRange, hg1, hg6, hk]) rfl
  · rw [← selectResponse_rcaArg]
    rfl
  · rw [← selectResponse_zero]
    rfl

/-! ## Identification -/

/-- R181: once CMD0 has begun, its drain is the first call of the trace. -/
theorem cmd0_first_call {s u : State} (hs : Ready s) (h : RunOf .cmd0 s u) :
    u.trace = [] ∨ u.trace.getLast? = some (.recvResponse s.responseAnswer) := by
  obtain ⟨t, hexec, hsteps⟩ := h
  obtain rfl : enterGoIdle [] s.begin = t := Host.Outcome.next.inj ((runOperation_ready enterGoIdle s hs).symm.trans hexec)
  have hat : At (enterGoIdle [] s.begin) .drain [] := at_goto _ _ _ hs.request
  cases hsteps with
  | here => exact .inl rfl
  | step _ v _ hstep hrest =>
    obtain rfl := Host.Outcome.next.inj ((step_at hat).symm.trans hstep)
    have hdrain := advance_performs (enterGoIdle [] s.begin) .drain []
    obtain ⟨-, l, hl⟩ := hrest.grows (hdrain.request.trans hs.request)
    exact .inr (by rw [hl, hdrain.trace]; exact List.getLast?_concat)

/-- Settles O24: `goIdle_law` is the controller, `cmd0_first_call` the drain. -/
theorem cmd0ResetsTheModeAndTheRca : Obligations.Cmd0ResetsTheModeAndTheRca := by
  unfold Obligations.Cmd0ResetsTheModeAndTheRca
  intro s hs
  obtain ⟨hran, hresult, -, hcard, -⟩ := goIdle_law s.begin
  rw [takeResponse_begin, nextSend_begin] at hresult hcard
  refine ⟨fun hw => ?_, fun e he => ?_, fun u hu => cmd0_first_call hs hu⟩
  · exact hs.runs_cmd0.completes hs hran ⟨by rw [hresult, hw]; rfl, hcard.trans (if_pos hw)⟩
  · exact hs.runs_cmd0.completes hs hran ⟨by rw [hresult, he]; rfl, hcard.trans (if_neg (by simp [he]))⟩

/-- A request that reads the CID (R186, R191). -/
theorem readCid_completes {i : Instr} {index : BitVec 6} {arg : Word} {s : State} (hs : Ready s)
    (hrun : RunsTo i s (readCid (newCmd index arg .r2) s.begin)) :
    (nextSend s = .well →
      CompletesWith i s { s.card with cid := registerOfWords (nextResponse s), cidValid := true } .well [frameOf index arg]) ∧
    ∀ e, nextSend s = .error e → CompletesWith i s s.card (errorCode e) [frameOf index arg] := by
  obtain ⟨hran, hresult, -, hwell, hfail⟩ := readCid_law index arg s.begin
  rw [nextSend_begin] at hresult hwell hfail
  rw [nextResponse_begin] at hwell
  refine ⟨fun hw => ?_, fun e he => ?_⟩
  · exact hrun.completes hs hran ⟨by rw [hresult, hw]; rfl, (hwell hw).1⟩
  · exact hrun.completes hs hran ⟨by rw [hresult, he]; rfl, hfail (by simp [he])⟩

/-- Settles O25: the two reads differ in their frame only (`readCid_completes`). -/
theorem cmd2AndCmd10StoreTheCid : Obligations.Cmd2AndCmd10StoreTheCid := by
  unfold Obligations.Cmd2AndCmd10StoreTheCid
  intro s hs
  obtain ⟨hwell2, hfail2⟩ := readCid_completes hs hs.runs_cmd2
  obtain ⟨hwell10, hfail10⟩ := readCid_completes hs hs.runs_cmd10
  rw [frame_cmd2] at hwell2 hfail2
  refine ⟨fun hw w hwords => ?_, fun e he => ⟨hfail2 e he, hfail10 e he⟩⟩
  subst hwords
  exact ⟨hwell2 hw, hwell10 hw⟩

/-- Settles O26: `issueRca_law` is the controller. -/
theorem cmd3StoresTheRca : Obligations.Cmd3StoresTheRca := by
  unfold Obligations.Cmd3StoresTheRca
  intro s hs
  obtain ⟨hran, -, hfail, hwell⟩ := issueRca_law s.begin
  rw [nextSend_begin] at hfail hwell
  rw [nextResponse_begin] at hwell
  refine ⟨fun hw hclear => ?_, fun hw hset => ?_, fun e he => hs.runs_cmd3.completes hs hran (hfail e he)⟩
  · obtain ⟨-, hstored, -⟩ := hwell hw
    exact hs.runs_cmd3.completes hs hran (hstored hclear)
  · obtain ⟨-, -, hrefused⟩ := hwell hw
    exact hs.runs_cmd3.completes hs hran (hrefused hset)

/-- Settles O28: the state, the result and the frame of `appCmdPrefix`. -/
theorem cmd55ChecksTheMaskThenAppCmd : Obligations.Cmd55ChecksTheMaskThenAppCmd := by
  unfold Obligations.Cmd55ChecksTheMaskThenAppCmd
  intro s hs
  exact hs.runs_cmd55.completes hs (appCmdPrefix_ran _)
    ⟨(appCmdPrefix_result _).trans (appPrefixResult_begin s), appCmdPrefix_card _⟩

/-- Settles O29: `sendOpCond_law` is the controller. -/
theorem acmd41StoresThePoweredUpOcr : Obligations.Acmd41StoresThePoweredUpOcr := by
  unfold Obligations.Acmd41StoresThePoweredUpOcr
  intro s a hs
  have hlaw := sendOpCond_law a s.begin
  simp only [appPrefixResult_begin, afterExchange_begin, nextSend_begin, nextResponse_begin] at hlaw
  obtain ⟨hprefix, hsent⟩ := hlaw
  refine ⟨fun hp => ?_, fun hp => ?_⟩
  · obtain ⟨hran, hresult, hcard, -⟩ := hprefix hp
    exact (hs.runs_acmd41 a).completes hs hran ⟨hresult, hcard⟩
  obtain ⟨hran, -, hfail, hwell⟩ := hsent hp
  refine ⟨fun e he => (hs.runs_acmd41 a).completes hs hran (hfail e he), fun hw hbusy => ?_, fun hw hup => ?_⟩
  · obtain ⟨-, hretry, -⟩ := hwell hw
    exact (hs.runs_acmd41 a).completes hs hran (hretry hbusy)
  · obtain ⟨-, -, hstored⟩ := hwell hw
    exact (hs.runs_acmd41 a).completes hs hran (hstored hup)

/-! ## The 1.8 V switch -/

theorem voltageSwitchAllowed_iff (s : State) : voltageSwitchAllowed s = true ↔
    s.host.supports1V8 = true ∧ s.card.ocr.getLsbD 24 = true ∧ s.card.mode = ModeName.ready.bits := by
  simp only [voltageSwitchAllowed, ocrS18A, Card.inMode, Bool.and_eq_true, decide_eq_true_eq, and_assoc]

theorem switchVoltage_refused {s : State} (h : voltageSwitchAllowed s = false) : switchVoltage s = (s, .notSupported) :=
  if_pos h

/-- R194: what SwitchVoltage can do under its guard. -/
theorem switchVoltage_law {s : State} (h : voltageSwitchAllowed s = true) :
    Ran s (switchVoltage s).1 [0x4B0000000077#48] ∧
    (r1Result s ≠ .well → (switchVoltage s).2 = r1Result s ∧ (switchVoltage s).1.card = s.card) ∧
    (r1Result s = .well →
      (∀ e, (afterExchange true s).voltageAnswer = .error e →
        (switchVoltage s).2 = errorCode e ∧ (switchVoltage s).1.card = s.card) ∧
      ((afterExchange true s).voltageAnswer = .well →
        (switchVoltage s).2 = .well ∧ (switchVoltage s).1.card = { s.card with voltage := 1#1 })) := by
  set c := newCmd 11#6 0#32 .r1
  have hswitch : switchVoltage s = tryThen (checkedExchange c s) fun v =>
      tryThen (hostSwitchVoltage v) fun v => (v.setCard { v.card with voltage := 1#1 }, .well) :=
    (if_neg (by simp [h])).trans (tryThen_checkedExchange c s _)
  have hran : Ran s (checkedExchange c s).1 [0x4B0000000077#48] := frame_cmd11 ▸ checkedExchange_ran c s
  have hcard : (checkedExchange c s).1.card = s.card := checkedExchange_card c s
  have hresult : (checkedExchange c s).2 = r1Result s := checkedExchange_result c s nofun
  by_cases hr1 : r1Result s = .well
  · have henv : SameEnv (checkedExchange c s).1 (afterExchange true s) :=
      checkedExchange_sameEnv c s ((r1Result_eq_well s).1 hr1).1 nofun
    rw [hswitch, tryThen_well _ _ (hresult.trans hr1)]
    generalize (checkedExchange c s).1 = v at hran hcard henv
    have hv : (hostSwitchVoltage v).2 = hostCode (afterExchange true s).voltageAnswer := congrArg hostCode henv.voltageAnswer
    have hranv := hran.then (hostSwitchVoltage_ran v)
    cases ha : (afterExchange true s).voltageAnswer with
    | well =>
      rw [tryThen_well _ _ (by rw [hv, ha]; rfl)]
      exact ⟨hranv.then (ran_setCard _ _), fun hn => absurd hr1 hn, fun _ => ⟨nofun, fun _ => ⟨rfl, by simp [hcard]⟩⟩⟩
    | error e =>
      rw [tryThen_fail _ _ (by rw [hv, ha]; exact errorCode_ne_well e)]
      refine ⟨hranv, fun hn => absurd hr1 hn, fun _ => ⟨fun e' he => ?_, nofun⟩⟩
      cases he
      exact ⟨by rw [hv, ha]; rfl, hcard⟩
  · rw [hswitch, tryThen_fail _ _ (hresult ▸ hr1)]
    exact ⟨hran, fun _ => ⟨hresult, hcard⟩, fun hw => absurd hw hr1⟩

/-- Settles O30: `switchVoltage_refused` without the guard, `switchVoltage_law` under it. -/
theorem cmd11SwitchesTheVoltageUnderItsGuard : Obligations.Cmd11SwitchesTheVoltageUnderItsGuard := by
  unfold Obligations.Cmd11SwitchesTheVoltageUnderItsGuard
  intro s hs
  have hguard : voltageSwitchAllowed s.begin = voltageSwitchAllowed s := rfl
  refine ⟨fun hn => ?_, fun hhost hocr hmode => ?_⟩
  · rw [← voltageSwitchAllowed_iff, Bool.not_eq_true, ← hguard] at hn
    have hrun := hs.runs_cmd11
    rw [switchVoltage_refused hn] at hrun
    exact hrun.completesSilently hs (.refl _) ⟨rfl, rfl⟩ nofun
  · have hlaw := switchVoltage_law (hguard.trans ((voltageSwitchAllowed_iff s).2 ⟨hhost, hocr, hmode⟩))
    simp only [r1Result_begin, afterExchange_begin, voltageAnswer_begin] at hlaw
    obtain ⟨hran, hr1, hanswered⟩ := hlaw
    refine ⟨fun hr => hs.runs_cmd11.completes hs hran (hr1 hr), fun hr => ?_⟩
    obtain ⟨hfail, hwell⟩ := hanswered hr
    exact ⟨fun e he => hs.runs_cmd11.completes hs hran (hfail e he), fun hw => hs.runs_cmd11.completes hs hran (hwell hw)⟩

/-! ## Register reads -/

theorem csdFields_v1 {reg : Reg128} (h : csdStructure reg = 0#2) : csdFields reg = some (.v1 (csdV1 reg)) := if_pos h

theorem csdFields_v2 {reg : Reg128} (h : csdStructure reg = 1#2) : csdFields reg = some (.v2 (csdV2 reg)) := by
  simp [csdFields, h]

theorem csdFields_none {reg : Reg128} (h : 2 ≤ (csdStructure reg).toNat) : csdFields reg = none := by
  have hne (v : BitVec 2) (hv : v.toNat < 2) : csdStructure reg ≠ v := fun he => by rw [he] at h; omega
  rw [csdFields, if_neg (hne 0#2 (by decide)), if_neg (hne 1#2 (by decide))]

/-- Settles O31: `getCsd_law` is the controller, `csdFields` the choice of the layout. -/
theorem cmd9StoresTheCsdAndItsGeometry : Obligations.Cmd9StoresTheCsdAndItsGeometry := by
  unfold Obligations.Cmd9StoresTheCsdAndItsGeometry
  intro s hs
  have hlaw := getCsd_law s.begin
  simp only [nextSend_begin, nextResponse_begin] at hlaw
  obtain ⟨hran, -, hfail, hwell⟩ := hlaw
  refine ⟨fun e he => hs.runs_cmd9.completes hs hran (hfail e he), fun hw reg hreg => ?_⟩
  obtain rfl : reg = registerOfWords (nextResponse s) := hreg
  rw [← csdStructure_registerOfWords]
  obtain ⟨-, hunknown, hlayout⟩ := hwell hw
  refine ⟨fun h0 => ?_, fun h1 => ?_, fun h2 => ?_⟩
  · exact hs.runs_cmd9.completes hs hran (hlayout _ (csdFields_v1 h0))
  · exact hs.runs_cmd9.completes hs hran (hlayout _ (csdFields_v2 h1))
  · exact hs.runs_cmd9.completes hs hran (hunknown (csdFields_none h2))

theorem getScr_unacquired {s : State} (h : s.acquireAnswer = false) : getScr s = (s.takeAcquisition, .memErr) := by
  simp only [getScr, acquire_none 8 s h, if_true]

/-- Settles O32: `getScr_unacquired` without a payload buffer, `getScr_cases` with one. -/
theorem acmd51StoresTheScrAndTheVersion : Obligations.Acmd51StoresTheScrAndTheVersion := by
  unfold Obligations.Acmd51StoresTheScrAndTheVersion
  intro s hs
  refine ⟨fun ha => ?_, fun ha e he => ?_⟩
  · have hrun := hs.runs_acmd51
    rw [getScr_unacquired (s := s.begin) ha] at hrun
    exact hrun.completesSilently hs (Performs.refl s.begin).takeAcquisition ⟨rfl, rfl⟩ nofun
  subst he
  have hlaw := getScr_cases s.begin ha
  simp only [takeAcquisition_begin, appPrefixResult_begin, afterExchange_begin, r1Result_begin, recvDataAnswer_begin,
    recvDataBytes_begin] at hlaw
  obtain ⟨hprefix, hsent⟩ := hlaw
  refine ⟨fun hp => ?_, fun hp hr => ?_, fun hp hr d hd => ?_⟩
  · obtain ⟨hran, hend⟩ := hprefix hp
    exact hs.runs_acmd51.completes hs hran hend.symm
  · obtain ⟨hran, hr1, -⟩ := hsent hp
    exact hs.runs_acmd51.completes hs hran (hr1 hr).symm
  subst hd
  obtain ⟨hran, -, hdata⟩ := hsent hp
  obtain ⟨hfail, hwell⟩ := hdata hr
  refine ⟨fun x hx => hs.runs_acmd51.completes hs hran (hfail x hx).symm, fun hw => ?_⟩
  obtain ⟨hcard, hresult, -⟩ := hwell hw
  exact hs.runs_acmd51.completes hs hran ⟨hresult, hcard⟩

/-! ## Commands with a checked R1, and selection -/

/-- A request that is one checked exchange. -/
theorem checkedExchange_completes {i : Instr} {index : BitVec 6} {arg : Word} {type : ResponseType} {d : Option Descriptor}
    {s : State} (hs : Ready s) (hrun : RunsTo i s (checkedExchange (newDataCmd index arg type d) s.begin))
    (htype : type ≠ .none) : CompletesWith i s s.card (r1Result s) [frameOf index arg] :=
  hrun.completes hs (checkedExchange_ran _ _)
    ⟨(checkedExchange_result _ _ htype).trans (r1Result_begin s), checkedExchange_card _ _⟩

/-- Settles O34: each is one checked exchange. -/
theorem checkedCommandsReturnTheirR1 : Obligations.CheckedCommandsReturnTheirR1 := by
  unfold Obligations.CheckedCommandsReturnTheirR1
  intro s a hs
  refine ⟨checkedExchange_completes hs (hs.runs_cmd16 a) nofun, checkedExchange_completes hs (hs.runs_cmd17 a) nofun,
    checkedExchange_completes hs (hs.runs_cmd18 a) nofun, checkedExchange_completes hs (hs.runs_cmd24 a) nofun,
    checkedExchange_completes hs (hs.runs_cmd25 a) nofun, checkedExchange_completes hs (hs.runs_cmd32 a) nofun,
    checkedExchange_completes hs (hs.runs_cmd33 a) nofun, ?_⟩
  rw [← frame_cmd38]
  exact checkedExchange_completes hs hs.runs_cmd38 nofun

/-- R190: CMD7 with the RCA 0 in its argument is an exchange with no response. -/
theorem selectCard_unanswered {sel : Bool} {s : State} (h : selectArg s.card sel = 0#32) :
    selectCard sel s = exchange (newCmd 7#6 0#32 .none) s := by
  simp only [selectCard, h, selectResponse_zero, reduceCtorEq, if_false]
  obtain ⟨hw, he⟩ | ⟨-, he⟩ := tryThen_cases (exchange (newCmd 7#6 0#32 .none) s) fun v => (v, .well)
  · exact he.trans (Prod.ext rfl hw.symm)
  · exact he

theorem selectCard_unanswered_completes {sel : Bool} {s : State} (hs : Ready s) (h : selectArg s.card sel = 0#32) :
    CompletesWith (.cmd7 sel) s s.card (sentResult s) [0x470000000083#48] := by
  have hrun := hs.runs_cmd7 sel
  rw [selectCard_unanswered (s := s.begin) h] at hrun
  rw [← frame_deselect]
  exact hrun.completes hs (exchange_ran _ _) ⟨by rw [exchange_result, nextSend_begin]; rfl, exchange_card _ _⟩

/-- R195: what GoInactive can do. -/
theorem goInactive_law (s : State) :
    Ran s (goInactive s).1 [frameOf 15#6 (s.card.rca ++ 0#16)] ∧
    (nextSend s = .well →
      (goInactive s).2 = .well ∧ (goInactive s).1.card = { s.card with mode := ModeName.inactive.bits }) ∧
    ∀ e, nextSend s = .error e → (goInactive s).2 = errorCode e ∧ (goInactive s).1.card = s.card := by
  have hran := exchange_ran (newCmd 15#6 s.card.rcaArg .none) s
  have hresult := exchange_result (newCmd 15#6 s.card.rcaArg .none) s
  cases hsend : nextSend s with
  | well =>
    have hgo : goInactive s = _ := tryThen_well _ _ (by rw [hresult, hsend]; rfl)
    rw [hgo]
    exact ⟨hran.then (ran_setMode _ _), fun _ => ⟨rfl, by simp⟩, nofun⟩
  | error e =>
    have hgo : goInactive s = _ := tryThen_fail _ _ (by rw [hresult, hsend]; exact errorCode_ne_well e)
    rw [hgo]
    refine ⟨hran, nofun, fun e' he => ?_⟩
    cases he
    exact ⟨by rw [hresult, hsend]; rfl, exchange_card _ _⟩

/-- Settles O33: CMD7 is a checked exchange or one with no response (`selectCard_unanswered`). -/
theorem selectionAndStatusCommands : Obligations.SelectionAndStatusCommands := by
  unfold Obligations.SelectionAndStatusCommands
  intro s hs
  have hinactive := goInactive_law s.begin
  rw [nextSend_begin] at hinactive
  obtain ⟨hran, hwell, hfail⟩ := hinactive
  refine ⟨fun hrca => ?_, fun hrca => ?_, selectCard_unanswered_completes hs rfl, ?_, ?_, fun hw => ?_, fun e he => ?_⟩
  · have hrun := hs.runs_cmd7 true
    rw [selectCard_true s.begin hrca] at hrun
    exact checkedExchange_completes hs hrun nofun
  · exact selectCard_unanswered_completes hs ((rca16_eq_zero _).2 hrca)
  · exact hs.runs_cmd13.completes hs (getStatus_ran _) ⟨(getStatus_result _).trans (statusResult_begin s), getStatus_card _⟩
  · exact hs.runs_cmd12.completes hs (stopTransmission_ran _)
      ⟨(stopTransmission_result _).trans (stopResult_begin s), stopTransmission_card _⟩
  · exact hs.runs_cmd15.completes hs hran (hwell hw)
  · exact hs.runs_cmd15.completes hs hran (hfail e he)

/-! ## Bus configuration -/

theorem setBusWidth_refused {w : Nat} (s : State) (h1 : w ≠ 1) (h4 : w ≠ 4) : setBusWidth w s = (s, .argFault) :=
  if_pos ⟨h1, h4⟩

/-- R211: what SetBusWidth can do with a width it takes. -/
theorem setBusWidth_law {w : Nat} (s : State) (h : w = 1 ∨ w = 4) :
    (appPrefixResult s ≠ .well → Ran s (setBusWidth w s).1 [frameOf 55#6 (s.card.rca ++ 0#16)] ∧
      (setBusWidth w s).2 = appPrefixResult s ∧ (setBusWidth w s).1.card = s.card) ∧
    (appPrefixResult s = .well →
      Ran s (setBusWidth w s).1 [frameOf 55#6 (s.card.rca ++ 0#16), frameOf 6#6 (acmd6Arg w)] ∧
      (setBusWidth w s).2 = r1Result (afterExchange true s) ∧ (setBusWidth w s).1.card = s.card) := by
  have hbus : setBusWidth w s = tryThen (appCmdPrefix s) (checkedExchange (newCmd 6#6 (acmd6Arg w) .r1)) :=
    if_neg (by omega)
  have hprefix := appCmdPrefix_result s
  refine ⟨fun hp => ?_, fun hp => ?_⟩
  · rw [hbus, tryThen_fail _ _ (hprefix ▸ hp)]
    exact ⟨appCmdPrefix_ran s, hprefix, appCmdPrefix_card s⟩
  · rw [hbus, tryThen_well _ _ (hprefix.trans hp)]
    refine ⟨(appCmdPrefix_ran s).trans (checkedExchange_ran _ _), ?_, by simp⟩
    rw [checkedExchange_result _ _ (by simp), (appCmdPrefix_sameEnv s hp).r1Result]

/-- Settles O35: `setBusWidth_refused` out of range, `setBusWidth_law` in range. -/
theorem acmd6SendsTheWidthCode : Obligations.Acmd6SendsTheWidthCode := by
  unfold Obligations.Acmd6SendsTheWidthCode
  intro s w hs
  have hrun := hs.runs_acmd6 w
  refine ⟨fun h1 h4 => ?_, fun hw => ?_⟩
  · rw [setBusWidth_refused _ h1 h4] at hrun
    exact hrun.completesSilently hs (.refl _) ⟨rfl, rfl⟩ nofun
  · have hlaw := setBusWidth_law s.begin hw
    simp only [appPrefixResult_begin, afterExchange_begin, r1Result_begin] at hlaw
    obtain ⟨hfail, hwell⟩ := hlaw
    refine ⟨fun hp => ?_, fun hp => ?_⟩
    · obtain ⟨hran, hend⟩ := hfail hp
      exact hrun.completes hs hran hend
    · obtain ⟨hran, hend⟩ := hwell hp
      exact hrun.completes hs hran hend

theorem selectFunction_refused (m : SwitchMode) {g k : Nat} (s : State) (h : g < 1 ∨ 6 < g ∨ 15 < k) :
    selectFunction m g k s = (s, .argFault) := if_pos h

theorem selectFunction_unacquired (m : SwitchMode) {g k : Nat} {s : State} (h : 1 ≤ g ∧ g ≤ 6 ∧ k ≤ 15)
    (ha : s.acquireAnswer = false) : selectFunction m g k s = (s.takeAcquisition, .memErr) := by
  rw [selectFunction, if_neg (by omega), acquire_none 64 s ha]
  rfl

/-- Settles O36: `selectFunction_refused` out of range, `selectFunction_unacquired` without a payload buffer,
else `selectFunction_cases`. -/
theorem cmd6StoresTheFunctionTables : Obligations.Cmd6StoresTheFunctionTables := by
  unfold Obligations.Cmd6StoresTheFunctionTables
  intro s m g k hs
  have hrun := hs.runs_cmd6 m g k
  refine ⟨fun hout => ?_, fun hg1 hg6 hk => ⟨fun ha => ?_, fun ha e he => ?_⟩⟩
  · rw [selectFunction_refused m _ hout] at hrun
    exact hrun.completesSilently hs (.refl _) ⟨rfl, rfl⟩ nofun
  · rw [selectFunction_unacquired (s := s.begin) m ⟨hg1, hg6, hk⟩ ha] at hrun
    exact hrun.completesSilently hs (Performs.refl s.begin).takeAcquisition ⟨rfl, rfl⟩ nofun
  subst he
  have hlaw := selectFunction_cases m g k ⟨hg1, hg6, hk⟩ s.begin ha
  simp only [takeAcquisition_begin, afterExchange_begin, r1Result_begin, recvDataAnswer_begin, recvDataBytes_begin] at hlaw
  obtain ⟨hran, hr1, hdata⟩ := hlaw
  refine ⟨fun hr => hrun.completes hs hran (hr1 hr).symm, fun hr => ?_⟩
  obtain ⟨hfail, hwell⟩ := hdata hr
  refine ⟨fun x hx => hrun.completes hs hran (hfail x hx).symm, fun hw => ?_⟩
  obtain ⟨hcard, hresult, -⟩ := hwell hw
  exact hrun.completes hs hran ⟨hresult, hcard⟩

end Sys2Proof.Machine

/-! The negotiator (43_function_switch.md R240 to R245): `negotiate` as its Check phase, the test of R241 and its Switch phase. The
laws of `Laws/Payloads.lean` say what one phase can do; `Leaves` puts the phases together, and `run_negotiate` takes the
negotiation to the block's steps. -/

namespace Sys2Proof.Machine

/-! ## What a controller called in mid-operation leaves -/

/-- A controller called in `s` returns `r` with the Card `c` and the payload buffer as it was, and sends these frames; `p` is the
state it leaves and its result. -/
structure Leaves (s : State) (p : State × Result) (r : Result) (c : Card) (frames : List (BitVec 48)) : Prop where
  ran : Ran s p.1 frames
  result : p.2 = r
  card : p.1.card = c
  payload : p.1.payload = s.payload

section

variable {s : State} {p : State × Result} {k : State → State × Result} {r : Result} {c d : Card}
  {f g : List (BitVec 48)}

theorem leaves_return (s : State) (r : Result) : Leaves s (s, r) r s.card [] := ⟨.refl s, rfl, rfl, rfl⟩

/-- `try` (R13) after `Well`: the frames of the rest follow. -/
theorem Leaves.tryThen (h : Leaves s p .well c f) (hk : Leaves p.1 (k p.1) r d g) : Leaves s (tryThen p k) r d (f ++ g) := by
  rw [tryThen_well p k h.result]
  exact ⟨h.ran.trans hk.ran, hk.result, hk.card, hk.payload.trans h.payload⟩

/-- `try` (R13) after a failure: nothing follows (R322). -/
theorem Leaves.tryThen_fail (h : Leaves s p r c f) (hr : r ≠ .well) : Leaves s (Machine.tryThen p k) r c f := by
  rw [Machine.tryThen_fail p k (h.result ▸ hr)]
  exact h

end

/-! ## The two tests (R241, R242) on the tables of a payload -/

theorem checkAccepted_withSwitchStatus (c : Card) (p : List Byte) {g : Nat} (k : Nat) (hg : 1 ≤ g ∧ g ≤ 6) :
    checkAccepted (c.withSwitchStatus p) g k = true ↔ (fnSupportOf p g).getLsbD k = true ∧ (fnCurrentOf p g).toNat = k := by
  obtain ⟨hsupport, hcurrent⟩ := withSwitchStatus_get c p g hg
  rw [checkAccepted, hsupport, hcurrent, Bool.and_eq_true, decide_eq_true_iff]

theorem switchAccepted_withSwitchStatus (c : Card) (p : List Byte) {g : Nat} (k : Nat) (hg : 1 ≤ g ∧ g ≤ 6) :
    switchAccepted (c.withSwitchStatus p) g k = true ↔ (fnCurrentOf p g).toNat = k := by
  rw [switchAccepted, (withSwitchStatus_get c p g hg).2, decide_eq_true_iff]

/-- The tables hold the last payload only. -/
theorem withSwitchStatus_again (c : Card) (p q : List Byte) :
    (c.withSwitchStatus p).withSwitchStatus q = c.withSwitchStatus q := rfl

/-! ## The negotiation as its two phases -/

/-- One phase (R240): CMD16(64), and CMD6 once it succeeded. -/
def negotiatePhase (m : SwitchMode) (g k : Nat) (s : State) : State × Result :=
  tryThen (setBlockLength switchBlockLen s) (selectFunction m g k)

/-- The Switch phase and its test (R242). -/
def negotiateSwitch (g k : Nat) (s : State) : State × Result :=
  tryThen (negotiatePhase .switch g k s) fun s => (s, if switchAccepted s.card g k then .well else .notSupported)

theorem negotiate_eq (g k : Nat) (s : State) :
    negotiate g k s = tryThen (negotiatePhase .check g k s) fun s =>
      if checkAccepted s.card g k then negotiateSwitch g k s else (s, .notSupported) := by
  have hswitch : ∀ v : State, (if switchAccepted v.card g k = false then (v, Result.notSupported) else (v, .well)) =
      (v, if switchAccepted v.card g k then .well else .notSupported) := by
    intro v
    cases switchAccepted v.card g k <;> rfl
  rw [negotiatePhase, tryThen_assoc, negotiate]
  refine congrArg (tryThen _) (funext fun v => congrArg (tryThen _) (funext fun v => ?_))
  rw [negotiateSwitch, negotiatePhase, tryThen_assoc]
  simp only [hswitch]
  cases checkAccepted v.card g k <;> rfl

theorem negotiatePhase_payload (m : SwitchMode) (g k : Nat) {t : State} (hpay : t.payload = none) :
    (negotiatePhase m g k t).1.payload = none := by
  have hlength : (setBlockLength switchBlockLen t).1.payload = none := (setBlockLength_payload _ t).trans hpay
  rw [negotiatePhase]
  obtain ⟨-, h⟩ | ⟨-, h⟩ := tryThen_cases (setBlockLength switchBlockLen t) (selectFunction m g k) <;> rw [h]
  · exact selectFunction_payload m g k _ hlength
  · exact hlength

section

variable {s t e : State} {g k : Nat} {p : List Byte} {r : Result} {sent : Bool}
variable (m : SwitchMode) (hgk : 1 ≤ g ∧ g ≤ 6 ∧ k ≤ 15)
include hgk

/-- A phase that succeeds in the environment of `s` does so from every `t` in that environment. -/
theorem SwitchPhase.leaves (hp : SwitchPhase s p e) (ht : SameEnv t s) (hpay : t.payload = none) :
    Leaves t (negotiatePhase m g k t) .well (t.card.withSwitchStatus p)
        [0x5000000040F1#48, frameOf 6#6 (cmd6Arg m g k)] ∧ SameEnv (negotiatePhase m g k t).1 e := by
  obtain ⟨hlength, hresult, hcard, hran, henv⟩ := switchPhase_run s e p g k hgk hp m t ht
  have hpayload := (negotiatePhase_payload m g k hpay).trans hpay.symm
  rw [negotiatePhase, tryThen_well _ _ hlength] at hpayload ⊢
  exact ⟨⟨hran, hresult, hcard, hpayload⟩, henv⟩

theorem SwitchPhaseFails.leaves (hf : SwitchPhaseFails s r sent) (ht : SameEnv t s) (hpay : t.payload = none) :
    Leaves t (negotiatePhase m g k t) r t.card
      (0x5000000040F1#48 :: if sent then [frameOf 6#6 (cmd6Arg m g k)] else []) := by
  obtain ⟨hresult, hcard, hran, hpayload⟩ := switchPhase_fails s r sent g k hgk hf m t ht
  exact ⟨hran, hresult, hcard, (hpayload hpay).trans hpay.symm⟩

end

/-! ## What the negotiation leaves -/

section

variable {s t e : State} {g k : Nat} {p : List Byte} {r : Result} {sent : Bool} {c : Card} {frames : List (BitVec 48)}

/-- R242 to R244: the Switch phase ends with its failure, or with what its payload says. -/
theorem negotiateSwitch_leaves (hgk : 1 ≤ g ∧ g ≤ 6 ∧ k ≤ 15) (ht : SameEnv t e) (hpay : t.payload = none) :
    (∀ r sent, SwitchPhaseFails e r sent → Leaves t (negotiateSwitch g k t) r t.card
      (0x5000000040F1#48 :: if sent then [frameOf 6#6 (cmd6Arg .switch g k)] else [])) ∧
    ∀ f q, SwitchPhase e q f → Leaves t (negotiateSwitch g k t)
      (if (fnCurrentOf q g).toNat = k then .well else .notSupported) (t.card.withSwitchStatus q)
      [0x5000000040F1#48, frameOf 6#6 (cmd6Arg .switch g k)] := by
  refine ⟨fun r sent hf => (hf.leaves .switch hgk ht hpay).tryThen_fail hf.ne_well, fun f q hq => ?_⟩
  obtain ⟨hphase, -⟩ := hq.leaves .switch hgk ht hpay
  have hend := leaves_return (negotiatePhase .switch g k t).1
    (if switchAccepted (negotiatePhase .switch g k t).1.card g k then .well else .notSupported)
  have hall := hphase.tryThen (k := fun v => (v, if switchAccepted v.card g k then .well else .notSupported)) hend
  simp only [hphase.card, switchAccepted_withSwitchStatus t.card q k ⟨hgk.1, hgk.2.1⟩] at hall
  exact hall

/-- R244: a failing Check phase ends the negotiation. -/
theorem negotiate_leaves_check_failed (hgk : 1 ≤ g ∧ g ≤ 6 ∧ k ≤ 15) (hpay : s.payload = none)
    (hf : SwitchPhaseFails s r sent) :
    Leaves s (negotiate g k s) r s.card
      (0x5000000040F1#48 :: if sent then [frameOf 6#6 (cmd6Arg .check g k)] else []) := by
  rw [negotiate_eq]
  exact (hf.leaves .check hgk (.refl s) hpay).tryThen_fail hf.ne_well

/-- R241: a Check payload that is not accepted ends the negotiation before its Switch phase. -/
theorem negotiate_leaves_rejected (hgk : 1 ≤ g ∧ g ≤ 6 ∧ k ≤ 15) (hpay : s.payload = none) (hp : SwitchPhase s p e)
    (hno : ¬ ((fnSupportOf p g).getLsbD k = true ∧ (fnCurrentOf p g).toNat = k)) :
    Leaves s (negotiate g k s) .notSupported (s.card.withSwitchStatus p)
      [0x5000000040F1#48, frameOf 6#6 (cmd6Arg .check g k)] := by
  obtain ⟨hphase, -⟩ := hp.leaves .check hgk (.refl s) hpay
  rw [negotiate_eq]
  refine hphase.tryThen ?_
  rw [hphase.card, if_neg (by rwa [checkAccepted_withSwitchStatus _ _ _ ⟨hgk.1, hgk.2.1⟩]), ← hphase.card]
  exact leaves_return _ _

/-- R240, R241: after an accepted Check payload the Switch phase follows and decides. -/
theorem negotiate_leaves_accepted (hgk : 1 ≤ g ∧ g ≤ 6 ∧ k ≤ 15) (hpay : s.payload = none) (hp : SwitchPhase s p e)
    (hyes : (fnSupportOf p g).getLsbD k = true ∧ (fnCurrentOf p g).toNat = k)
    (hswitch : Leaves (negotiatePhase .check g k s).1 (negotiateSwitch g k (negotiatePhase .check g k s).1) r c frames) :
    Leaves s (negotiate g k s) r c (0x5000000040F1#48 :: frameOf 6#6 (cmd6Arg .check g k) :: frames) := by
  obtain ⟨hphase, -⟩ := hp.leaves .check hgk (.refl s) hpay
  rw [negotiate_eq]
  refine hphase.tryThen ?_
  rwa [if_pos (by rwa [hphase.card, checkAccepted_withSwitchStatus _ _ _ ⟨hgk.1, hgk.2.1⟩])]

/-- The block's steps lead from the call of the negotiator to its return. -/
theorem Leaves.negotiate_reaches (h : Leaves s (negotiate g k s) r c frames) (hreq : s.request = none) (K : List Frame) :
    Reaches (.next (enterNegotiate g k K s)) s (.returned r) K c frames := by
  obtain ⟨hran, rfl, rfl, hpayload⟩ := h
  exact ⟨_, rfl, _, run_negotiate g k K s hreq,
    ⟨hran.host, hran.params, hran.request, rfl, hpayload, hran.callerDesc, rfl, hran.outcome, hran.frames⟩, hran.memorySame⟩

end

/-- Settles O37: the Check phase fails (`negotiate_leaves_check_failed`), its payload is rejected (`negotiate_leaves_rejected`), or
the Switch phase follows (`negotiate_leaves_accepted`, `negotiateSwitch_leaves`). -/
theorem negotiateAcceptsInBothPhases : Obligations.NegotiateAcceptsInBothPhases := by
  unfold Obligations.NegotiateAcceptsInBothPhases
  intro s g k K hreq hpay hg1 hg6 hk
  have hgk : 1 ≤ g ∧ g ≤ 6 ∧ k ≤ 15 := ⟨hg1, hg6, hk⟩
  refine ⟨fun r sent hf => (negotiate_leaves_check_failed hgk hpay hf).negotiate_reaches hreq K, fun e p hp =>
    ⟨fun hno => (negotiate_leaves_rejected hgk hpay hp hno).negotiate_reaches hreq K, fun hsupport hcurrent => ?_⟩⟩
  have hyes := And.intro hsupport hcurrent
  obtain ⟨hphase, henv⟩ := hp.leaves .check hgk (.refl s) hpay
  obtain ⟨hfail, hwell⟩ := negotiateSwitch_leaves hgk henv (hphase.payload.trans hpay)
  simp only [hphase.card, withSwitchStatus_again] at hfail hwell
  exact ⟨fun r sent hf => (negotiate_leaves_accepted hgk hpay hp hyes (hfail r sent hf)).negotiate_reaches hreq K,
    fun f q hq => (negotiate_leaves_accepted hgk hpay hp hyes (hwell f q hq)).negotiate_reaches hreq K⟩

end Sys2Proof.Machine

/-! Block transfers (44_block_transfer.md R262 to R267): the status poll before an attempt, and one transaction from its poll to its
return. `attempt_law` says what an attempt can do; here its poll stands before it and the return of R262 and R266 behind it. -/

namespace Sys2Proof.Machine

/-! ## Where steps lead -/

section

variable {s t u : State} {p q : Point} {K L : List Frame} {c : Card} {frames : List (BitVec 48)}

/-- Steps that end at another control point begin with a step. -/
theorem Steps.first (h : Steps s u) (hne : u.control ≠ s.control) : ∃ v, Machine.step s = .next v ∧ Steps v u := by
  cases h with
  | here => exact absurd rfl hne
  | step _ v _ hstep hrest => exact ⟨v, hstep, hrest⟩

theorem At.control_ne (hat : At s p K) (hne : q ≠ p) : (u.goto q L).control ≠ s.control := by
  rw [hat.control]
  exact fun h => hne (Control.running.inj h).1

theorem Moved.stands (h : Moved s t frames) : Stands s (t.goto q L) q L s.card frames :=
  ⟨h.host, h.params, h.request, rfl, h.payload, h.callerDesc, h.card, h.outcome, h.frames⟩

/-- `Ran.reaches` for a run that is known to leave memory alone. -/
theorem Moved.reaches (h : Moved s t frames) (hmem : t.mem = s.mem) (hat : At s p K) (hne : q ≠ p)
    (hsteps : Steps s (t.goto q L)) : Reaches (step s) s q L s.card frames := by
  obtain ⟨v, hstep, hrest⟩ := hsteps.first (hat.control_ne hne)
  exact ⟨v, hstep, _, hrest, h.stands, fun a => congrArg (Memory.read · a) hmem⟩

/-- The end of a request that began at a position of an operation. -/
theorem Moved.finishes (h : Moved (s.goto p K) t frames) (ok : Bool) (code : Option Result) :
    Finishes s (t.finish ok code) s.card ok code frames :=
  ⟨h.host, h.params, h.request, rfl, rfl, rfl, rfl, h.card, rfl, h.frames⟩

end

/-! ## The status poll (R263) -/

section

variable (cur : Cursor) (K : List Frame) (s : State)

/-- A failure that is no `NotReady` ends the operation with its code. -/
theorem polledAnswered_failed {r : Result} (hwell : r ≠ .well) (hready : r ≠ .notReady) :
    polledAnswered cur r K s = s.endWith false (some r) K := by
  cases r
  case well => exact absurd rfl hwell
  case notReady => exact absurd rfl hready
  all_goals rfl

theorem polledAnswered_timeout (h : limitReached s.params.statusPollLimit (cur.polls + 1) = true) :
    polledAnswered cur .notReady K s = s.endWith false (some .timeout) K := if_pos h

theorem polledAnswered_again (h : limitReached s.params.statusPollLimit (cur.polls + 1) = false) :
    polledAnswered cur .notReady K s = s.goto (.statusPoll { cur with polls := cur.polls + 1 }) K :=
  if_neg (ne_true_of_eq_false h)

end

section

variable {cur : Cursor} {K : List Frame} {s : State}

/-- The steps of a poll, up to what its answer decides. -/
theorem At.polled (hat : At s (.statusPoll cur) K) :
    Steps s (polledAnswered cur (statusResult s) K (getStatus s).1) := by
  have hsteps := run_statusPoll_answer cur K s hat.request
  rwa [hat.goto, getStatus_result] at hsteps

/-- A poll whose answer leads to `q`. -/
theorem At.poll_reaches {q : Point} (hat : At s (.statusPoll cur) K) (hne : .statusPoll cur ≠ q)
    (hanswer : polledAnswered cur (statusResult s) K (getStatus s).1 = (getStatus s).1.goto q K) :
    Reaches (step s) s q K s.card [frameOf 13#6 (s.card.rca ++ 0#16)] := by
  have hreach := (getStatus_ran s).reaches hat hne (getStatus_payload s) (hanswer ▸ hat.polled)
  rwa [getStatus_card] at hreach

end

/-- Settles O52: the three answers of `polledAnswered` that do not go on to the attempt. -/
theorem statusPollRepeatsOnlyNotReady : Obligations.StatusPollRepeatsOnlyNotReady := by
  unfold Obligations.StatusPollRepeatsOnlyNotReady
  intro s cur K hat
  have hparams : (getStatus s).1.params = s.params := (getStatus_ran s).params
  refine ⟨fun hwell hready => ?_, fun hpoll hlimit => ?_, fun hpoll hlimit => ?_⟩
  · exact hat.poll_reaches nofun (polledAnswered_failed cur K _ hwell hready)
  · refine hat.poll_reaches nofun ?_
    rw [hpoll]
    exact polledAnswered_timeout cur K _ (hparams.symm ▸ hlimit)
  · have hne : Point.statusPoll cur ≠ .statusPoll { cur with polls := cur.polls + 1 } := fun h =>
      absurd (congrArg Cursor.polls (Point.statusPoll.inj h)) (Nat.ne_of_lt (Nat.lt_succ_self _))
    refine hat.poll_reaches hne ?_
    rw [hpoll]
    exact polledAnswered_again cur K _ (hparams.symm ▸ hlimit)

/-! ## The attempt, its phases in order (R264, R265, R267) -/

section

variable {cur : Cursor} {n : Nat} {s : State}

/-- The state an attempt leaves once its command is accepted: the data phase and CMD12 follow, whatever they answer. -/
theorem attempt_state (h : r1Result s = .well) :
    let d := blockDescriptor s cur.dir cur.buffer n
    (attempt cur n s).1 =
      (stopAfter n (dataPhase cur.dir d (dataCommand cur.dir n (s.card.address cur.block) d s).1).1).1 := by
  have hwell := (dataCommand_result cur.dir n (s.card.address cur.block) (blockDescriptor s cur.dir cur.buffer n) s).trans h
  simp only [attempt, hwell, ne_eq, not_true_eq_false, if_false]
  split <;> rfl

theorem stopAfter_grows (n : Nat) (s : State) : s.trace ⊆ (stopAfter n s).1.trace := by
  obtain ⟨hsent, hnone, -⟩ := stopAfter_law n s
  by_cases hstop : stopNeeded s.host n
  · obtain ⟨l, hl⟩ := (hsent hstop).1.grows
    rw [hl]
    exact List.subset_append_right l s.trace
  · rw [hnone hstop]
    exact List.Subset.refl _

/-- R265, R333: the `send_data` of a write holds the buffer's bytes. -/
theorem attempt_sends (hdir : cur.dir = .write) (hcmd : r1Result s = .well)
    (hdata : dataAnswer cur.dir (afterExchange true s) = .well) :
    let d := blockDescriptor s .write cur.buffer n
    HostEvent.sendData d (s.mem.readBytes cur.buffer d.capacity.toNat) .well ∈ (attempt cur n s).1.trace := by
  intro d
  rw [attempt_state hcmd]
  rw [hdir] at hdata ⊢
  have hmem := (dataCommand_ran .write n (s.card.address cur.block) d s).mem
  have hanswer : (dataCommand .write n (s.card.address cur.block) d s).1.sendDataAnswer = .well :=
    (dataCommand_sameEnv .write n _ d s hcmd).sendDataAnswer.trans hdata
  refine stopAfter_grows n _ ?_
  have htrace := (hostSendData_performs (dataCommand .write n (s.card.address cur.block) d s).1 d).trace
  rw [hanswer, if_pos rfl, hmem] at htrace
  show _ ∈ (hostSendData d _).1.trace
  rw [htrace]
  exact List.mem_cons_self

end

/-- R267: the frames of CMD12, when it must go out. -/
def stopFrames (h : HostPort) (n : Nat) : List (BitVec 48) :=
  if 1 < n ∧ h.autoCmd12 = false then [0x4C0000000061#48] else []

/-- What holds of the frames with CMD12 when it must go out holds in each of the two cases. -/
theorem stopFrames_cases {P : List (BitVec 48) → Prop} {h : HostPort} {n : Nat} {frames : List (BitVec 48)}
    (hP : P (frames ++ stopFrames h n)) :
    (stopNeeded h n → P (frames ++ [0x4C0000000061#48])) ∧ (¬ stopNeeded h n → P frames) := by
  refine ⟨fun hstop => ?_, fun hstop => ?_⟩
  · rwa [show stopFrames h n = _ from if_pos hstop] at hP
  · rwa [show stopFrames h n = _ from if_neg hstop, List.append_nil] at hP

/-! ## One transaction (R262 to R267) -/

/-- The poll's CMD13 and the data command of a transaction of `n` blocks. -/
def transferFrames (s : State) (cur : Cursor) (n : Nat) : List (BitVec 48) :=
  [frameOf 13#6 (s.card.rca ++ 0#16), frameOf (dataIndex cur.dir n) (s.card.address cur.block)]

/-- The bytes of a transaction of `n` blocks. -/
def transferLength (s : State) (n : Nat) : Nat := n * s.card.blockSize.toNat

/-- A transaction of `n` blocks, polled in `s` and ready, whose data command is accepted: `p` is what its attempt leaves, `e` the
environment its data phase meets. -/
structure Transfers (s e : State) (cur : Cursor) (n : Nat) (p : State × Attempt) : Prop where
  moved : Moved s p.1 (transferFrames s cur n ++ stopFrames s.host n)
  failed : ∀ x, dataAnswer cur.dir e = .error x → p.2 = .dataFail
  succeeded : dataAnswer cur.dir e = .well → ∀ r,
    (stopNeeded s.host n → r = stopResult (afterData cur.dir (transferLength s n) e)) →
    (¬ stopNeeded s.host n → r = .well) → p.2 = .done r
  written : cur.dir = .write → p.1.mem = s.mem
  received : cur.dir = .read → p.1.mem = s.mem.writeBytes cur.buffer (e.recvDataBytes (transferLength s n))
  sent : cur.dir = .write → dataAnswer cur.dir e = .well →
    ∃ d, HostEvent.sendData d (s.mem.readBytes cur.buffer (transferLength s n)) .well ∈ p.1.trace

section

variable {s e : State} {cur : Cursor} {n : Nat}

/-- The environment after a poll that found the card ready. -/
theorem getStatus_ready_sameEnv (henv : SameEnv s e) (hready : statusResult e = .well) :
    SameEnv (getStatus s).1 (afterExchange true e) :=
  (getStatus_sameEnv s (henv.nextSend.trans (statusResult_well_send e hready))).trans (henv.afterExchange true)

theorem getStatus_moved (s : State) : Moved s (getStatus s).1 [frameOf 13#6 (s.card.rca ++ 0#16)] :=
  (getStatus_ran s).moved (getStatus_card s) (getStatus_payload s)

/-- The attempt of a transaction that is polled in the environment of `e`, from `attempt_law` after the poll. -/
theorem attempt_transfers (henv : SameEnv s e) (hready : statusResult e = .well) (hcmd : r1Result (afterExchange true e) = .well)
    (hfit : transferLength s n < 2 ^ 64) :
    Transfers s (afterExchange true (afterExchange true e)) cur n (attempt cur n (getStatus s).1) := by
  have hpoll := getStatus_moved s
  have hmem : (getStatus s).1.mem = s.mem := (getStatus_ran s).mem
  have hpolled := getStatus_ready_sameEnv henv hready
  have hdata := hpolled.afterExchange true
  have haccepted := hpolled.r1Result.trans hcmd
  have hlen : (BitVec.ofNat 64 (n * s.card.blockSize.toNat)).toNat = transferLength s n :=
    (BitVec.toNat_ofNat _ _).trans (Nat.mod_eq_of_lt hfit)
  obtain ⟨hstop, hnostop, hwrite, hread, hfailed, hsucceeded⟩ := (attempt_law cur n (getStatus s).1).2 haccepted
  rw [getStatus_card, hlen] at hread hsucceeded
  rw [getStatus_card, hpoll.host] at hstop hnostop
  rw [hpoll.host, hdata.dataAnswer, (hdata.afterData cur.dir _).stopResult] at hsucceeded
  rw [hmem, hdata.recvDataBytes] at hread
  rw [hmem] at hwrite
  refine ⟨?_, fun x hx => hfailed x (hdata.dataAnswer cur.dir ▸ hx), fun hwell r hr hw => ?_, hwrite, hread,
    fun hdir hwell => ?_⟩
  · unfold stopFrames
    split
    case isTrue h => exact hpoll.trans (hstop h)
    case isFalse h => exact (List.append_nil _).symm ▸ hpoll.trans (hnostop h)
  · by_cases h : stopNeeded s.host n
    · rw [hr h]; exact (hsucceeded hwell).1 h
    · rw [hw h]; exact (hsucceeded hwell).2 h
  · have hsent := attempt_sends (n := n) hdir haccepted ((hdata.dataAnswer cur.dir).trans hwell)
    rw [hmem] at hsent
    rw [← hlen, ← getStatus_card s]
    exact ⟨_, hsent⟩

end

section

variable {s e : State} {cur : Cursor} {n : Nat} {p : State × Attempt} (h : Transfers s e cur n p)
include h

/-- R269: memory outside the receive buffer is as it was, and all of it on a write. -/
theorem Transfers.memory : (cur.dir = .write → MemorySame s p.1) ∧
    (cur.dir = .read → ∀ a, OutsideBuffer cur.buffer (transferLength s n) a → p.1.mem.read a = s.mem.read a) := by
  refine ⟨fun hdir a => by rw [h.written hdir], fun hdir a ha => ?_⟩
  rw [h.received hdir]
  exact read_writeBytes_other _ _ _ _ (by rwa [recvDataBytes_length])

/-- R64: byte `i` received stands at `buffer + i`. -/
theorem Transfers.bytes (hdir : cur.dir = .read) (hwf : s.mem.wf = true) (hfit : transferLength s n < 2 ^ 64) {i : Nat}
    (hi : i < transferLength s n) :
    p.1.mem.read (byteAddress cur.buffer i) = (e.recvDataBytes (transferLength s n)).getD i 0#8 := by
  rw [h.received hdir]
  exact read_writeBytes_same _ _ _ hwf (by rw [recvDataBytes_length]; exact hfit.le) i (by rwa [recvDataBytes_length])

end

/-! ## The return of a transaction (R262, R266) -/

/-- R262: where a transaction of `n` blocks that succeeded leads. -/
def nextPoint (cur : Cursor) (n : Nat) (blockSize : BitVec 32) : Point :=
  if cur.remaining ≤ n then .ended true (some .well) else .statusPoll (cur.advance n blockSize)

/-- R266: where a transaction whose data phase failed leads, with `retries` the retries it has. -/
def retryPoint (cur : Cursor) (retries : Nat) : Point :=
  if cur.retry < retries then .statusPoll { cur with retry := cur.retry + 1, polls := 0 }
  else .ended false (some (dataFailCode cur.dir))

theorem nextPoint_ne {cur : Cursor} {n : Nat} (blockSize : BitVec 32) (hn : n = 0 → cur.remaining = 0) :
    nextPoint cur n blockSize ≠ .statusPoll cur := by
  unfold nextPoint
  split
  case isTrue => nofun
  case isFalse h =>
    intro he
    have hremaining : cur.remaining - n = cur.remaining := congrArg Cursor.remaining (Point.statusPoll.inj he)
    omega

theorem retryPoint_ne (cur : Cursor) (retries : Nat) : retryPoint cur retries ≠ .statusPoll cur := by
  unfold retryPoint
  split
  case isTrue => exact fun he => Nat.succ_ne_self _ (congrArg Cursor.retry (Point.statusPoll.inj he))
  case isFalse => nofun

section

variable {cur : Cursor} {n : Nat} {p : State × Attempt} (K : List Frame)

theorem attemptReturn_dataFail (h : p.2 = .dataFail) :
    attemptReturn cur n p K = p.1.goto (retryPoint cur p.1.params.dataRetry) K := by
  simp only [attemptReturn, h, retryPoint]
  split <;> rfl

theorem attemptReturn_failed {r : Result} (h : p.2 = .done r) (hr : r ≠ .well) :
    attemptReturn cur n p K = p.1.endWith false (some r) K := by
  simp only [attemptReturn, h]
  exact if_pos hr

theorem attemptReturn_well (h : p.2 = .done .well) :
    attemptReturn cur n p K = p.1.goto (nextPoint cur n p.1.card.blockSize) K := by
  simp only [attemptReturn, h, nextPoint, ne_eq, not_true_eq_false, if_false]
  split <;> rfl

/-- The last transaction ends the operation with its result. -/
theorem attemptReturn_last {r : Result} (h : p.2 = .done r) (hlast : cur.remaining ≤ n) :
    attemptReturn cur n p K = p.1.endWith (decide (r = .well)) (some r) K := by
  by_cases hr : r = .well
  · subst hr
    rw [attemptReturn_well K h, nextPoint, if_pos hlast]
    rfl
  · rw [attemptReturn_failed K h hr, decide_eq_false hr]

end

section

variable {s : State} {cur : Cursor} {n : Nat} {K : List Frame}

/-- R262: the engine's block count after the poll is that of the transaction. -/
theorem blocks_getStatus (hn : n = min cur.remaining (max 1 s.host.maxBlockCount)) : cur.blocks (getStatus s).1 = n := by
  rw [hn, Cursor.blocks, (getStatus_ran s).host]
  rfl

/-- From a poll that finds the card ready, the steps of a transaction and its return. -/
theorem At.transaction (hat : At s (.statusPoll cur) K) (hn : n = min cur.remaining (max 1 s.host.maxBlockCount))
    (hready : statusResult s = .well) : Steps s (attemptReturn cur n (attempt cur n (getStatus s).1) K) := by
  have hpoll := hat.polled
  rw [hready] at hpoll
  have hrun := run_attempt cur K (getStatus s).1 ((getStatus_ran s).request.trans hat.request)
  rw [blocks_getStatus hn] at hrun
  exact hpoll.trans hrun

end

/-- Settles O56: `Transfers.failed` makes the attempt a failed data phase, and `retryPoint` is where it leads. -/
theorem failedDataPhaseIsRetried : Obligations.FailedDataPhaseIsRetried := by
  unfold Obligations.FailedDataPhaseIsRetried
  intro s cur K n x hat hn hfit hready hcmd hx
  have htransfers := attempt_transfers (cur := cur) (.refl s) hready hcmd hfit
  have hsteps := hat.transaction hn hready
  generalize attempt cur n (getStatus s).1 = p at htransfers hsteps
  rw [attemptReturn_dataFail K (htransfers.failed x hx), htransfers.moved.params] at hsteps
  obtain ⟨t, hstep, hrest⟩ := hsteps.first (hat.control_ne (retryPoint_ne cur _))
  have hstands := htransfers.moved.stands (q := retryPoint cur s.params.dataRetry) (L := K)
  refine ⟨t, hstep, _, hrest, ?_, htransfers.memory⟩
  rintro _ rfl
  refine ⟨fun hleft => ?_, fun hnone code hcode => ?_⟩
  · rw [retryPoint, if_pos hleft] at hstands ⊢
    exact stopFrames_cases (P := Stands s _ _ K s.card) hstands
  · have hcode : code = dataFailCode cur.dir := by rw [hcode]; cases cur.dir <;> rfl
    rw [retryPoint, if_neg (Nat.not_lt.2 hnone), ← hcode] at hstands ⊢
    exact stopFrames_cases (P := Stands s _ _ K s.card) hstands

/-- Settles O57: `Transfers.succeeded` makes the attempt a success, and `nextPoint` is where it leads. -/
theorem successfulTransactionAdvancesTheCursor : Obligations.SuccessfulTransactionAdvancesTheCursor := by
  unfold Obligations.SuccessfulTransactionAdvancesTheCursor
  rintro s _ cur K n hat hn hfit hwf hready hcmd rfl hdata hstop
  have htransfers := attempt_transfers (cur := cur) (.refl s) hready hcmd hfit
  have hsteps := hat.transaction hn hready
  generalize attempt cur n (getStatus s).1 = p at htransfers hsteps
  have hwell := htransfers.succeeded hdata .well (fun h => (hstop h).symm) fun _ => rfl
  rw [attemptReturn_well K hwell, htransfers.moved.card] at hsteps
  obtain ⟨t, hstep, hrest⟩ := hsteps.first (hat.control_ne (nextPoint_ne s.card.blockSize (by omega)))
  have hstands := htransfers.moved.stands (q := nextPoint cur n s.card.blockSize) (L := K)
  refine ⟨t, hstep, _, hrest, fun q hlast hnext => ?_, htransfers.memory.1, fun hdir =>
    ⟨fun i hi => htransfers.bytes hdir hwf hfit hi, htransfers.memory.2 hdir⟩⟩
  have hq : nextPoint cur n s.card.blockSize = q := by
    unfold nextPoint
    split
    case isTrue h => exact (hlast h).symm
    case isFalse h => exact (hnext (Nat.lt_of_not_le h)).symm
  rw [hq] at hstands ⊢
  exact stopFrames_cases (P := Stands s _ _ K s.card) hstands

/-! ## The command phase and CMD12 (R264, R265, R267) -/

theorem blockDescriptor_congr {s t : State} (host : t.host = s.host) (card : t.card = s.card) (dir : Direction) (p : Addr)
    (n : Nat) : blockDescriptor t dir p n = blockDescriptor s dir p n := by
  unfold blockDescriptor
  rw [host, card]

section

variable {s : State} {cur : Cursor} {n : Nat} {K : List Frame}

/-- After a poll that found the card ready the data command goes out. -/
theorem At.starts_dataCommand (hat : At s (.statusPoll cur) K)
    (hn : n = min cur.remaining (max 1 s.host.maxBlockCount)) (hready : statusResult s = .well) :
    Starts (step s) s (dataIndex cur.dir n) (s.card.address cur.block) .r1 (some (blockDescriptor s cur.dir cur.buffer n))
      (.checked :: .commanded cur :: K) s.card [frameOf 13#6 (s.card.rca ++ 0#16)] := by
  have hran := getStatus_ran s
  have hcard := getStatus_card s
  have hpoll : Steps s (startAttempt cur K (getStatus s).1) := by
    have h := hat.polled
    rwa [hready] at h
  rw [startAttempt, enterDataCommand_eq, blocks_getStatus hn, hcard, blockDescriptor_congr hran.host hcard] at hpoll
  have hne : Point.statusPoll cur ≠ exchangeCall s := by
    unfold exchangeCall
    split <;> nofun
  have hstarts := hran.starts hat hne (getStatus_payload s) hpoll
  rwa [hcard] at hstarts

/-- R264, R265: a failed command phase ends the operation; no data phase follows. -/
theorem At.command_failed (hat : At s (.statusPoll cur) K) (hn : n = min cur.remaining (max 1 s.host.maxBlockCount))
    (hready : statusResult s = .well) (hcmd : r1Result (afterExchange true s) ≠ .well) :
    Reaches (step s) s (.ended false (some (r1Result (afterExchange true s)))) K s.card (transferFrames s cur n) := by
  have hresult := (getStatus_ready_sameEnv (.refl s) hready).r1Result
  obtain ⟨hmoved, hmem, hdone⟩ := (attempt_law cur n (getStatus s).1).1 (hresult ▸ hcmd)
  rw [hresult] at hdone
  rw [getStatus_card] at hmoved
  have hsteps := hat.transaction hn hready
  rw [attemptReturn_failed K hdone hcmd] at hsteps
  exact ((getStatus_moved s).trans hmoved).reaches (hmem.trans (getStatus_ran s).mem) hat nofun hsteps

end

theorem stopResult_failed {s : State} (h : stopResult s ≠ .well) : stopResult s = .transStopFail := by
  unfold stopResult at h ⊢
  split at h
  case isTrue => exact absurd rfl h
  case isFalse hr => exact if_neg hr

/-- R39: AutoStopAfterMultiBlock is bit 1 of the descriptor's flags. -/
theorem blockDescriptor_autoStop (s : State) (dir : Direction) (p : Addr) (n : Nat) :
    (blockDescriptor s dir p n).flags.getLsbD 1 = true ↔ 1 < n ∧ s.host.autoCmd12 = true := by
  cases dir <;> by_cases h : 1 < n ∧ s.host.autoCmd12 = true <;> simp [blockDescriptor, h, readEnable, autoStop]

/-- Settles O58: `At.starts_dataCommand`, the two ways in which its R1 (`At.command_failed`) and CMD12 (`stopResult_failed`) end the
operation, and the descriptor's flag. -/
theorem stopTransmissionIsSentExactlyOnce : Obligations.StopTransmissionIsSentExactlyOnce := by
  unfold Obligations.StopTransmissionIsSentExactlyOnce
  rintro s _ cur K n hat hn hready rfl
  refine ⟨hat.starts_dataCommand hn hready, hat.command_failed hn hready, fun hcmd hdata hstop hfit hfail => ?_,
    blockDescriptor_autoStop s cur.dir cur.buffer n⟩
  have htransfers := attempt_transfers (cur := cur) (.refl s) hready hcmd hfit
  have hsteps := hat.transaction hn hready
  generalize attempt cur n (getStatus s).1 = p at htransfers hsteps
  have hdone := htransfers.succeeded hdata .transStopFail (fun _ => (stopResult_failed hfail).symm) (absurd hstop)
  rw [attemptReturn_failed K hdone nofun] at hsteps
  obtain ⟨t, hstep, hrest⟩ := hsteps.first (hat.control_ne nofun)
  exact ⟨t, hstep, _, hrest, (stopFrames_cases (P := Stands s _ _ K s.card) htransfers.moved.stands).1 hstop⟩

end Sys2Proof.Machine

/-! The requests for block operations (44_block_transfer.md R260, R261; 45_lifecycle.md R304, R305): the argument checks, the card
address, and a `rw_blocks` of one transaction. -/

namespace Sys2Proof.Machine

/-! ## The argument checks (R260) and the card address (R261) -/

theorem checkRange_of_blocksInRange {c : Card} {start count : Nat} (h : blocksInRange c start count) :
    checkRange c start count = .well := by
  obtain ⟨hcount, hend, haddress⟩ := h
  have hlow : ¬ (c.highCapacity = false ∧ 2 ^ 32 ≤ (start + count - 1) * c.blockSize.toNat) := fun hb =>
    Nat.not_le.2 (haddress hb.1) hb.2
  rw [checkRange, if_neg hcount.ne', if_neg (Nat.not_lt.2 hend), if_neg hlow]

/-- R260: the range checks fail with one code. -/
theorem checkRange_of_not_blocksInRange {c : Card} {start count : Nat} (h : ¬ blocksInRange c start count) :
    checkRange c start count = .argFault := by
  have hfail : checkRange c start count ≠ .well := mt blocksInRange_of_checkRange h
  unfold checkRange at hfail ⊢
  split_ifs at hfail ⊢ <;> trivial

/-- R260, R261: the last address of a range is that of its last block. -/
theorem blockAddress_lt {c : Card} {start count b : Nat} (h : blocksInRange c start count) (hb : b < start + count)
    (hlow : c.highCapacity = false) : b * c.blockSize.toNat < 2 ^ 32 :=
  calc b * c.blockSize.toNat
    _ ≤ (start + count - 1) * c.blockSize.toNat := Nat.mul_le_mul_right _ (Nat.le_sub_one_of_lt hb)
    _ < 2 ^ 32 := h.2.2 hlow

theorem address_high {c : Card} (b : Nat) (h : c.ocr.getLsbD 30 = true) : (c.address b).toNat = b % 2 ^ 32 := by
  rw [Card.address, if_pos (show c.highCapacity = true from h), BitVec.toNat_ofNat]

theorem address_low {c : Card} (b : Nat) (h : c.ocr.getLsbD 30 = false) :
    (c.address b).toNat = b * c.blockSize.toNat % 2 ^ 32 := by
  rw [Card.address, if_neg (ne_true_of_eq_false (show c.highCapacity = false from h)), BitVec.toNat_ofNat]

/-- Settles O55: the two addressings (`address_high`, `address_low`); in a range a block is below the block count, and its byte
address below the one that R260 checks (`blockAddress_lt`). -/
theorem cardAddressOfABlock : Obligations.CardAddressOfABlock := by
  unfold Obligations.CardAddressOfABlock
  refine ⟨fun c b => ⟨address_high b, address_low b⟩, fun c start count hcheck hcard b _ hb => ?_⟩
  have hrange := blocksInRange_of_checkRange hcheck
  cases h : c.ocr.getLsbD 30 with
  | true => exact (address_high b h).trans (Nat.mod_eq_of_lt (hb.trans_le (hrange.2.1.trans hcard)))
  | false => exact (address_low b h).trans (Nat.mod_eq_of_lt (blockAddress_lt hrange hb h))

section

variable {s : State} {start count : Word} {dir : Direction} {p : Addr} (hs : Ready s)
include hs

/-- An operation that returns before its first host-port call ends the request without one. -/
theorem Ready.endsSilently {i : Instr} {code : Result} {enter : List Frame → State → State}
    (hexec : exec i s = runOperation enter s) (henter : enter [] s.begin = s.begin.endWith false (some code) []) :
    CompletesSilently i s s.card false (some code) :=
  ⟨_, hexec.trans (runOperation_ready enter s hs), _, henter ▸ run_ended false (some code) s.begin hs.request,
    finishes_at_once s false (some code), fun _ => rfl, rfl⟩

theorem Ready.rwBlocks_fails {buffer : Option Addr} {code : Result}
    (h : checkArgs s.card buffer start.toNat count.toNat = code) (hcode : code ≠ .well) :
    CompletesSilently (.rwBlocks buffer start count dir) s s.card false (some code) := by
  subst h
  exact hs.endsSilently (enter := enterRwBlocks buffer start count dir) rfl (if_pos hcode)

theorem Ready.formatBlocks_fails {code : Result} (h : checkRange s.card start.toNat count.toNat = code)
    (hcode : code ≠ .well) : CompletesSilently (.formatBlocks start count) s s.card false (some code) := by
  subst h
  exact hs.endsSilently (enter := enterFormatBlocks start count) rfl (if_pos hcode)

theorem Ready.exec_rwBlocks (h : blocksInRange s.card start.toNat count.toNat) :
    exec (.rwBlocks (some p) start count dir) s =
      .next (s.begin.goto (.statusPoll ⟨dir, p, start.toNat, count.toNat, 0, 0⟩) []) := by
  have hcheck : checkArgs s.card (some p) start.toNat count.toNat = .well :=
    checkRange_of_blocksInRange h
  exact (runOperation_ready _ s hs).trans (congrArg _ (if_neg (not_not_intro hcheck)))

theorem Ready.exec_formatBlocks (h : blocksInRange s.card start.toNat count.toNat) :
    exec (.formatBlocks start count) s = .next (s.begin.goto (.eraseChunk start.toNat count.toNat) []) := by
  have hcheck : checkRange s.card start.toNat count.toNat = .well :=
    checkRange_of_blocksInRange h
  exact (runOperation_ready _ s hs).trans (congrArg _ (if_neg (not_not_intro hcheck)))

end

/-- Settles O51: arguments in range enter the loops (`Ready.exec_rwBlocks`, `Ready.exec_formatBlocks`), all others end the request
at once. -/
theorem transferArgumentsAreCheckedFirst : Obligations.TransferArgumentsAreCheckedFirst := by
  unfold Obligations.TransferArgumentsAreCheckedFirst
  intro s start count dir p hs
  refine ⟨hs.rwBlocks_fails rfl nofun, fun hbad => ?_, fun hcount hend hlow => ?_⟩
  · have hout : ¬ blocksInRange s.card start.toNat count.toNat := by
      rintro ⟨hcount, hend, haddress⟩
      obtain rfl | hpast | ⟨hlow, hlarge⟩ := hbad
      · exact absurd hcount (Nat.lt_irrefl 0)
      · exact absurd hend (Nat.not_le.2 hpast)
      · exact absurd (haddress hlow) (Nat.not_lt.2 hlarge)
    have hcheck := checkRange_of_not_blocksInRange hout
    exact ⟨hs.rwBlocks_fails hcheck nofun, hs.formatBlocks_fails hcheck nofun⟩
  · exact ⟨hs.exec_rwBlocks ⟨hcount, hend, hlow⟩, hs.exec_formatBlocks ⟨hcount, hend, hlow⟩⟩

/-! ## Requests of one transaction (R304) -/

/-- The cursor that `rw_blocks` begins with. -/
def firstCursor (dir : Direction) (p : Addr) (start count : Word) : Cursor :=
  ⟨dir, p, start.toNat, count.toNat, 0, 0⟩

/-- The state in which `rw_blocks` begins: at its first status poll. -/
def State.firstPoll (s : State) (dir : Direction) (p : Addr) (start count : Word) : State :=
  s.begin.goto (.statusPoll (firstCursor dir p start count)) []

/-- Block counts and sizes are 32-bit words. -/
theorem transferLength_lt (s : State) (count : Word) : transferLength s count.toNat < 2 ^ 64 :=
  (Nat.mul_lt_mul'' count.isLt s.card.blockSize.isLt).trans_eq (by norm_num)

/-- A request of one transaction with a successful data phase ends with the result `r` of CMD12, `Well` where none is sent; `a` is
what its attempt leaves. -/
theorem Ready.transfers_once {s : State} {p : Addr} {start count : Word} {dir : Direction} {r : Result} (hs : Ready s)
    (hmax : count.toNat ≤ s.host.maxBlockCount) (hready : statusResult s = .well)
    (hcmd : r1Result (afterExchange true s) = .well)
    (hdata : dataAnswer dir (afterExchange true (afterExchange true s)) = .well)
    (hstop : stopNeeded s.host count.toNat →
      r = stopResult (afterData dir (transferLength s count.toNat) (afterExchange true (afterExchange true s))))
    (hnostop : ¬ stopNeeded s.host count.toNat → r = .well) :
    ∃ a, Steps (s.firstPoll dir p start count) (a.1.finish (decide (r = .well)) (some r)) ∧
      Finishes s.begin (a.1.finish (decide (r = .well)) (some r)) s.card (decide (r = .well)) (some r)
        ([frameOf 13#6 (s.card.rca ++ 0#16), frameOf (dataIndex dir count.toNat) (s.card.address start.toNat)] ++
          stopFrames s.host count.toNat) ∧
      Transfers (s.firstPoll dir p start count) (afterExchange true (afterExchange true s))
        (firstCursor dir p start count) count.toNat a := by
  have hat : At (s.firstPoll dir p start count) (.statusPoll (firstCursor dir p start count)) [] := at_goto _ _ _ hs.request
  have henv : SameEnv (s.firstPoll dir p start count) s := ⟨rfl, rfl, rfl⟩
  have hn : count.toNat = min count.toNat (max 1 s.host.maxBlockCount) :=
    (Nat.min_eq_left (hmax.trans (Nat.le_max_right _ _))).symm
  have htransfers := attempt_transfers (cur := firstCursor dir p start count) henv hready hcmd (transferLength_lt s count)
  have hsteps := hat.transaction hn (henv.statusResult.trans hready)
  generalize attempt _ _ (getStatus (s.firstPoll dir p start count)).1 = a at htransfers hsteps
  rw [attemptReturn_last [] (htransfers.succeeded hdata r hstop hnostop) (Nat.le_refl count.toNat)] at hsteps
  exact ⟨a, hsteps.trans (run_ended _ _ _ (htransfers.moved.request.trans hs.request)), htransfers.moved.finishes _ _,
    htransfers⟩

/-- Settles O53: a request of one transaction (`Ready.transfers_once`), and what its data phase does to memory. -/
theorem readTransactionFillsTheBuffer : Obligations.ReadTransactionFillsTheBuffer := by
  unfold Obligations.ReadTransactionFillsTheBuffer
  rintro s _ p start count _ hs hwf rfl hcount hmax hend hlow hready hcmd rfl hdata r ⟨hstop, hnostop⟩
  obtain ⟨a, hsteps, hfinishes, htransfers⟩ :=
    hs.transfers_once (p := p) (start := start) (dir := .read) hmax hready hcmd hdata hstop hnostop
  exact ⟨_, hs.exec_rwBlocks ⟨hcount, hend, hlow⟩, _, hsteps, stopFrames_cases (P := Finishes s.begin _ s.card _ _) hfinishes,
    fun i => htransfers.bytes rfl hwf (transferLength_lt s count), htransfers.memory.2 rfl⟩

theorem readBytes_getD (m : Memory) (p : Addr) {n i : Nat} (h : i < n) :
    (m.readBytes p n).getD i 0#8 = m.read (byteAddress p i) := by
  simp [Memory.readBytes, h]

/-- Settles O54: a request of one transaction (`Ready.transfers_once`), and the `send_data` that its trace holds. -/
theorem writeTransactionSendsTheBuffer : Obligations.WriteTransactionSendsTheBuffer := by
  unfold Obligations.WriteTransactionSendsTheBuffer
  rintro s _ p start count _ hs rfl hcount hmax hend hlow hready hcmd rfl hdata r ⟨hstop, hnostop⟩
  obtain ⟨a, hsteps, hfinishes, htransfers⟩ :=
    hs.transfers_once (p := p) (start := start) (dir := .write) hmax hready hcmd hdata hstop hnostop
  obtain ⟨d, hsent⟩ := htransfers.sent rfl hdata
  exact ⟨_, hs.exec_rwBlocks ⟨hcount, hend, hlow⟩, _, hsteps, stopFrames_cases (P := Finishes s.begin _ s.card _ _) hfinishes,
    htransfers.memory.1 rfl, d, _, hsent, by rw [Memory.readBytes, List.length_map, List.length_range]; rfl,
    fun i hi => readBytes_getD s.mem p hi⟩

end Sys2Proof.Machine

/-! The erase loop (44_block_transfer.md R268): one chunk from the head of the loop to its return, and `format_blocks` of one chunk.
`eraseCommands_law` says what the three commands of a chunk can do. -/

namespace Sys2Proof.Machine

section

variable {s : State} {block remaining n : Nat} {p : State × Result} {q : Point} {K : List Frame} {frames : List (BitVec 48)}

/-- Where a chunk of `n` blocks that was erased leads. -/
def nextChunk (block remaining n : Nat) : Point :=
  if remaining ≤ n then .ended true (some .well) else .eraseChunk (block + n) (remaining - n)

theorem nextChunk_ne (hn : n = 0 → remaining = 0) : Point.eraseChunk block remaining ≠ nextChunk block remaining n := by
  unfold nextChunk
  split
  case isTrue => nofun
  case isFalse h =>
    intro he
    injection he
    omega

theorem eraseReturn_failed (block remaining n : Nat) (K : List Frame) (h : p.2 ≠ .well) :
    eraseReturn block remaining n p K = p.1.endWith false (some p.2) K := if_pos h

theorem eraseReturn_well (block remaining n : Nat) (K : List Frame) (h : p.2 = .well) :
    eraseReturn block remaining n p K = p.1.goto (nextChunk block remaining n) K := by
  rw [eraseReturn, if_neg (not_not_intro h), nextChunk]
  split <;> rfl

/-- The steps of a chunk and its return. -/
theorem At.erases (hat : At s (.eraseChunk block remaining) K) (hn : n = min remaining (max 1 s.host.maxBlockCount)) :
    Steps s (eraseReturn block remaining n (eraseCommands block n s) K) := by
  have hrun := run_eraseChunk block remaining K s hat.request
  rw [hat.goto] at hrun
  rw [hn]
  exact hrun

/-- A chunk whose commands send these frames and lead to `q`. -/
theorem At.erase_reaches (hat : At s (.eraseChunk block remaining) K)
    (hn : n = min remaining (max 1 s.host.maxBlockCount)) (hran : Ran s (eraseCommands block n s).1 frames)
    (hq : eraseReturn block remaining n (eraseCommands block n s) K = (eraseCommands block n s).1.goto q K)
    (hne : Point.eraseChunk block remaining ≠ q) : Reaches (step s) s q K s.card frames := by
  obtain ⟨hcard, hpayload, -⟩ := eraseCommands_law block n s
  have hreach := hran.reaches hat hne hpayload (hq ▸ hat.erases hn)
  rwa [hcard] at hreach

/-- A chunk whose commands fail with `r`. -/
theorem At.erase_fails {r : Result} (hat : At s (.eraseChunk block remaining) K)
    (hn : n = min remaining (max 1 s.host.maxBlockCount))
    (h : Ran s (eraseCommands block n s).1 frames ∧ (eraseCommands block n s).2 = r) (hr : r ≠ .well) :
    Reaches (step s) s (.ended false (some r)) K s.card frames := by
  obtain ⟨hran, rfl⟩ := h
  exact hat.erase_reaches hn hran (eraseReturn_failed block remaining n K hr) nofun

end

/-- R305: a request of one chunk whose three commands succeed. -/
theorem Ready.formatBlocks_once {s : State} {start count : Word} {n : Nat} (hs : Ready s)
    (hn : n = min count.toNat (max 1 s.host.maxBlockCount)) (hrange : blocksInRange s.card start.toNat count.toNat)
    (hlast : count.toNat ≤ n) (h1 : r1Result s = .well) (h2 : r1Result (afterExchange true s) = .well)
    (h3 : r1Result (afterExchange true (afterExchange true s)) = .well) :
    Completes (.formatBlocks start count) s s.card true (some .well)
      [frameOf 32#6 (s.card.address start.toNat), frameOf 33#6 (s.card.address (start.toNat + n - 1)), 0x6600000000A5#48] := by
  have hexec := hs.exec_formatBlocks hrange
  set t := s.begin.goto (.eraseChunk start.toNat count.toNat) []
  have hat : At t (.eraseChunk start.toNat count.toNat) [] := at_goto _ _ _ hs.request
  have henv : SameEnv t s := ⟨rfl, rfl, rfl⟩
  obtain ⟨hcard, hpayload, -, -, herase⟩ := eraseCommands_law start.toNat n t
  obtain ⟨hran, hresult⟩ := herase (henv.r1Result.trans h1) ((henv.afterExchange true).r1Result.trans h2)
  have hwell := hresult.trans (((henv.afterExchange true).afterExchange true).r1Result.trans h3)
  have hsteps := hat.erases hn
  rw [eraseReturn_well _ _ _ _ hwell, nextChunk, if_pos hlast] at hsteps
  exact ⟨t, hexec, _, hsteps.trans (run_ended true _ _ (hran.request.trans hs.request)),
    (hran.moved hcard hpayload).finishes true _, fun a => congrArg (Memory.read · a) hran.mem⟩

/-- Settles O59: the outcomes of `eraseCommands_law` and where `eraseReturn` takes them. -/
theorem eraseChunkSendsThreeCommands : Obligations.EraseChunkSendsThreeCommands := by
  unfold Obligations.EraseChunkSendsThreeCommands
  intro s block remaining n hn
  obtain ⟨-, -, hstart, hend, herase⟩ := eraseCommands_law block n s
  refine ⟨fun K hat => ⟨fun h1 => hat.erase_fails hn (hstart h1) h1, fun h1 h2 => hat.erase_fails hn (hend h1 h2) h2,
    fun h1 h2 => ⟨fun h3 => hat.erase_fails hn (herase h1 h2) h3, fun h3 => ?_⟩⟩, ?_⟩
  · obtain ⟨hran, hwell⟩ := herase h1 h2
    have hreach := hat.erase_reaches hn hran (eraseReturn_well block remaining n K (hwell.trans h3)) (nextChunk_ne (by omega))
    refine ⟨fun hlast => ?_, fun hleft => ?_⟩
    · rwa [nextChunk, if_pos hlast] at hreach
    · rwa [nextChunk, if_neg (Nat.not_le.2 hleft)] at hreach
  · rintro start count hs rfl rfl hcheck hlast h1 h2 h3
    exact hs.formatBlocks_once hn (blocksInRange_of_checkRange hcheck) hlast h1 h2 h3

end Sys2Proof.Machine

/-! The frame of the block operations (44_block_transfer.md R268, R269): no routine that serves them has a line that writes the
Card, and no routine that serves an erase has a data phase. -/

namespace Sys2Proof.Machine

/-! ## The Card -/

/-- A routine that serves no block operation runs for none. -/
theorem nested_bottom_servesBlocks {b r : Routine} {K : List Frame} (h : nested b r K) (hr : r.servesBlocks = false) :
    b.servesBlocks = false := by
  induction K generalizing r with
  | nil => exact (show r = b from h) ▸ hr
  | cons f rest ih =>
    obtain ⟨rfl, hrest⟩ := h
    exact ih hrest (f.calls_servesBlocks hr)

/-- Every line that writes the Card stands in a routine that serves no block operation. -/
theorem CardWrite.bottom_servesBlocks {b : Routine} {k : Control} {c d : Card} (hw : CardWrite c k d)
    (h : controlNested b k) : b.servesBlocks = false := by
  cases hw
  case voltage | scr | table | identificationBus | identificationClock | transferClock | teardownBus =>
    exact nested_bottom_servesBlocks h.1 rfl
  all_goals exact nested_bottom_servesBlocks h.1.2 rfl

theorem ControlInv.advance_card {b : Routine} {s : State} {p : Point} {K : List Frame} (h : ControlInv b s)
    (hc : s.control = .running p K) (hb : b.servesBlocks = true) : (Machine.advance p K s).card = s.card := by
  obtain hsame | hwrite := advance_cardMoves p K s
  · exact hsame
  · have hnested := h.nesting
    rw [hc] at hnested
    cases hb.symm.trans (hwrite.bottom_servesBlocks hnested)

/-! ## System memory -/

/-- What follows a host-port call makes no other, and so writes no memory. -/
theorem mem_after_call {s u : State} (t : State) (ht : t.mem = s.mem) (hu : Performs none t t → Performs none t u) :
    u.mem = s.mem := ((hu (.refl t)).silent rfl).1.trans ht

/-- R60 c: only a data phase of a transfer writes system memory. -/
theorem advance_mem {p : Point} (K : List Frame) (s : State) (hp : ∀ cur, p ≠ .blockData cur) :
    (advance p K s).mem = s.mem := by
  have hsilent (hc : callAt s p = none) : (advance p K s).mem = s.mem := ((advance_performs s p K).silent hc).1
  cases p
  case addFraming | recvResponse | identificationBus | identificationClock => rfl
  case sendCommand => exact mem_after_call (hostSendCommand s).1 rfl fun hr => .ite (hr.goto _) (hr.giveBack _)
  case drain => exact mem_after_call (hostRecvResponse s) rfl fun hr => hr.startExchange _
  case voltage => exact mem_after_call (hostSwitchVoltage s).1 rfl fun hr => .ite ((hr.setCard _).giveBack _) (hr.giveBack _)
  case scrData | tableData =>
    exact mem_after_call _ (hostRecvData_payload_ran _ s rfl).mem fun hr =>
      .ite (hr.releaseGiveBack _) ((hr.setCard _).releaseGiveBack _)
  case insertion k =>
    exact mem_after_call (hostIsCardInserted s).1 rfl fun hr => .ite (hr.goto _) (.ite (hr.endWith _ _) (hr.goto _))
  case activation => exact mem_after_call (hostActivateCard s).1 rfl fun hr => .ite (hr.endWith _ _) hr.enterGoIdle
  case transferClock =>
    exact mem_after_call (hostSetClockFrequency .f25M s) rfl fun hr => .ite (hr.enterNegotiate _ _) (hr.enterSetBlockLength _)
  case teardownBus => exact mem_after_call (hostSetBusWidth .one s) rfl fun hr => hr.enterSelectCard _
  case blockData cur => exact absurd rfl (hp cur)
  case ifCondAttempt | opCondIteration | statusPoll | eraseChunk | returned | ended => exact hsilent rfl

theorem nested_rwBlocks {b : Routine} {K : List Frame} (h : nested b .rwBlocks K) : b = .rwBlocks := by
  cases K with
  | nil => exact h.symm
  | cons f rest =>
    have hcalls : f.calls ≠ .rwBlocks := by cases f <;> nofun
    exact absurd h.1 hcalls

theorem ControlInv.advance_mem {s : State} {p : Point} {K : List Frame} (h : ControlInv .formatBlocks s)
    (hc : s.control = .running p K) : (Machine.advance p K s).mem = s.mem := by
  refine Machine.advance_mem K s fun cur hp => ?_
  have hnested := h.nesting
  rw [hc, hp] at hnested
  cases nested_rwBlocks hnested.1

/-! ## Runs -/

/-- What every step of a request of routine `b` keeps, its runs keep. -/
theorem Steps.keeps {α : Type} {b : Routine} {x : State → α} {t u : State} (h : Steps t u) (ht : ControlInv b t)
    (hreq : t.request = none)
    (hkeeps : ∀ s p K, ControlInv b s → s.control = .running p K → x (Machine.advance p K s) = x s) : x u = x t := by
  induction h with
  | here => rfl
  | step t v u hstep _ ih =>
    obtain ⟨-, rfl⟩ | ⟨p, K, hat, rfl⟩ | ⟨q, i, -, hsome, -⟩ := step_cases hstep
    · exact ih ht hreq
    · exact (ih (ht.advance hat.control) ((advance_performs t p K).request.trans hreq)).trans (hkeeps t p K ht hat.control)
    · cases hreq.symm.trans hsome

/-- A request of a block operation writes no Card field. -/
theorem RunOf.card_of_servesBlocks {i : Instr} {b : Routine} {s u : State} (h : RunOf i s u) (hi : routineOf i = some b)
    (hb : b.servesBlocks = true) (hreq : s.request = none) : u.card = s.card := by
  obtain ⟨t, hexec, hsteps⟩ := h
  have ht : t.card = s.card := by
    obtain hsame | ⟨rfl, -⟩ | ⟨rfl, -⟩ := exec_card hexec
    · exact hsame
    · cases hi
    · cases hi
      cases hb
  exact (hsteps.keeps (x := State.card) (exec_controlInv hi hexec) ((exec_performs hexec).request.trans hreq)
    fun _ _ _ hv hc => hv.advance_card hc hb).trans ht

theorem RunOf.mem_of_formatBlocks {start count : Word} {s u : State} (h : RunOf (.formatBlocks start count) s u)
    (hreq : s.request = none) : u.mem = s.mem := by
  obtain ⟨t, hexec, hsteps⟩ := h
  have hperforms := exec_performs hexec
  exact (hsteps.keeps (x := State.mem) (exec_controlInv rfl hexec) (hperforms.request.trans hreq)
    fun _ _ _ hv hc => hv.advance_mem hc).trans (hperforms.silent rfl).1

/-- Settles O60: the Card and, for an erase, memory are kept by every step of the run (`Steps.keeps`). -/
theorem theEngineWritesNoCardField : Obligations.TheEngineWritesNoCardField := by
  unfold Obligations.TheEngineWritesNoCardField
  refine ⟨fun s u b start count dir hreq hrun => hrun.card_of_servesBlocks rfl rfl hreq, fun s u start count hreq hrun =>
    ⟨hrun.card_of_servesBlocks rfl rfl hreq, fun a => ?_⟩⟩
  rw [hrun.mem_of_formatBlocks hreq]

end Sys2Proof.Machine

/-! The block-size fix-up (45_lifecycle.md R296), in exact arithmetic. -/

namespace Sys2Proof.Machine

theorem fixBlockSize_blockSize (c : Card) : c.fixBlockSize.blockSize = 512#32 := by
  unfold Card.fixBlockSize
  split
  case isTrue h => exact h
  case isFalse => rfl

/-- R296, R28: the fix-up counts the whole 512-byte blocks of the capacity. -/
theorem fixBlockSize_blockCount {c : Card} (h : c.capacity.toNat = c.blockCount.toNat * c.blockSize.toNat) :
    c.fixBlockSize.blockCount.toNat = c.capacity.toNat / 512 := by
  unfold Card.fixBlockSize
  split
  case isTrue h512 =>
    rw [h, h512]
    exact (Nat.mul_div_cancel _ (by decide)).symm
  case isFalse => exact BitVec.toNat_udiv

/-- Settles O10: `fixBlockSize_capacity` is the equation, `fixBlockSize_blockCount` the count, `fixBlockSize_eq` the frame. -/
theorem blockSizeFixUpKeepsTheCapacityEquation : Obligations.BlockSizeFixUpKeepsTheCapacityEquation := by
  unfold Obligations.BlockSizeFixUpKeepsTheCapacityEquation
  intro c h
  have hsize := fixBlockSize_blockSize c
  have hcount := fixBlockSize_blockCount h
  have hcapacity := fixBlockSize_capacity h
  rw [hsize] at hcapacity
  refine ⟨hsize, hcapacity, hcount, fun h1024 => ?_, fun h2048 => ?_, ?_⟩
  · rw [h1024] at h
    rw [hcount, h, BitVec.toNat_ofNat]
    omega
  · rw [h2048] at h
    rw [hcount, h, BitVec.toNat_ofNat]
    omega
  · obtain ⟨count, size, capacity, hfix⟩ := fixBlockSize_eq c
    rw [hfix]

end Sys2Proof.Machine

/-! The mode (45_lifecycle.md R290): the lines that write it, and the requests under which they run. -/

namespace Sys2Proof.Machine

/-! ## The lines that write the mode -/

theorem modeWrittenAt_normalDeselect (r e : Result) (K : List Frame) :
    modeWrittenAt (.running (.returned r) (.normalDeselect e :: K)) = some .standBy := by
  cases r <;> rfl

theorem modeWrittenAt_teardownIdle (r : Result) (K : List Frame) :
    modeWrittenAt (.running (.returned r) (.teardownIdle :: K)) = some .inactive := by
  cases r <;> rfl

theorem modeWrittenAt_freeDevice (r : Result) (K : List Frame) :
    modeWrittenAt (.running (.returned r) (.freeDevice :: K)) = none := by
  cases r <;> rfl

/-- A line that writes the Card writes the mode as `modeWrittenAt` names it. -/
theorem CardWrite.mode {k : Control} {c d : Card} (hw : CardWrite c k d) :
    (modeWrittenAt k = none → d.mode = c.mode) ∧ ∀ m, modeWrittenAt k = some m → d.mode = m.bits := by
  cases hw
  case deselected K r e =>
    rw [modeWrittenAt_normalDeselect]
    exact ⟨nofun, fun m hm => Option.some.inj hm ▸ rfl⟩
  case tornDown K r =>
    rw [modeWrittenAt_teardownIdle]
    exact ⟨nofun, fun m hm => Option.some.inj hm ▸ rfl⟩
  case freedReturned K r =>
    rw [modeWrittenAt_freeDevice]
    exact ⟨fun _ => rfl, nofun⟩
  case goIdle | inactive | ready | identify | standBy | transfer =>
    exact ⟨nofun, fun m hm => Option.some.inj hm ▸ rfl⟩
  all_goals exact ⟨fun _ => rfl, nofun⟩

/-- A step keeps the mode, or writes the one named for its line. -/
theorem advance_mode (p : Point) (K : List Frame) (s : State) : (advance p K s).card.mode = s.card.mode ∨
    ∃ m, modeWrittenAt (.running p K) = some m ∧ (advance p K s).card.mode = m.bits := by
  obtain hsame | hwrite := advance_cardMoves p K s
  · exact .inl (congrArg Card.mode hsame)
  · obtain ⟨hnone, hsome⟩ := hwrite.mode
    cases hm : modeWrittenAt (.running p K) with
    | none => exact .inl (hnone hm)
    | some m => exact .inr ⟨m, rfl, hsome m hm⟩

theorem detectOpCondAnswered_card (v2 : Bool) (k : Nat) (K : List Frame) (s : State) :
    (detectOpCondAnswered v2 k .well K s).card = { s.card with mode := ModeName.ready.bits } :=
  card_ite (enterSwitchVoltage_card _ _) (enterAllSendCid_card _ _)

/-- R297: the failure path of `to_normal` falls back from Transfer only. -/
theorem normalDeselectAnswered_card (r : Result) (K : List Frame) (s : State) :
    (normalDeselectAnswered r K s).card =
      { s.card with mode := if s.card.mode = ModeName.transfer.bits then ModeName.standBy.bits else s.card.mode } := by
  unfold normalDeselectAnswered Card.inMode
  by_cases h : s.card.mode = ModeName.transfer.bits
  · simp only [h, decide_true, if_true]; rfl
  · simp only [h, decide_false, if_false]; rfl

/-- A line named as a writer of the mode writes it; the failure path of `to_normal` only from Transfer. -/
theorem advance_writes_mode {p : Point} {K : List Frame} {m : ModeName} (s : State)
    (h : modeWrittenAt (.running p K) = some m) : (advance p K s).card.mode = m.bits ∨
      (∃ r e k, Control.running p K = .running (.returned r) (.normalDeselect e :: k)) ∧
        s.card.mode ≠ ModeName.transfer.bits ∧ (advance p K s).card.mode = s.card.mode := by
  unfold modeWrittenAt at h
  split at h
  case h_3 v2 k rest he =>
    cases he
    cases h
    exact .inl (congrArg Card.mode (detectOpCondAnswered_card v2 k rest s))
  case h_4 rest he =>
    cases he
    cases h
    exact .inl (congrArg Card.mode (enterIssueRca_card (.detectRca :: rest) (s.setMode .identify)))
  case h_7 r e rest he =>
    cases he
    cases h
    have hcard : (advance (.returned r) (.normalDeselect e :: rest) s).card.mode = _ :=
      congrArg Card.mode (normalDeselectAnswered_card e rest s)
    by_cases htransfer : s.card.mode = ModeName.transfer.bits
    · exact .inl (hcard.trans (if_pos htransfer))
    · exact .inr ⟨⟨r, e, rest, rfl⟩, htransfer, hcard.trans (if_neg htransfer)⟩
  case h_9 => cases h
  all_goals
    next he =>
    cases he
    cases h
    exact .inl rfl

/-! ## The modes of a request -/

/-- The modes that a routine and those it calls write. -/
def Routine.modes : Routine → List ModeName
  | .exchange | .sendIfCond | .appCmdPrefix | .sendOpCond | .readCid | .issueRca | .switchVoltage | .getCsd | .getScr
  | .selectFunction | .getStatus | .stopTransmission | .checked | .negotiate | .rwBlocks | .formatBlocks => []
  | .goIdle => [.idle]
  | .goInactive => [.inactive]
  | .detect => [.idle, .ready, .identify, .standBy]
  | .toNormal => [.transfer, .standBy]
  | .initialDevice => [.idle, .ready, .identify, .standBy, .transfer]
  | .inactivateDevice | .freeDevice => [.idle, .inactive]

theorem routine_modes_eq {i : Instr} {b : Routine} (h : routineOf i = some b) : b.modes = modesWrittenBy i := by
  cases i <;> cases h <;> rfl

theorem Frame.calls_modes (f : Frame) : f.calls.modes ⊆ f.routine.modes := by
  cases f <;> simp [Frame.calls, Frame.routine, Routine.modes]

theorem nested_modes {b r : Routine} {K : List Frame} (h : nested b r K) : r.modes ⊆ b.modes := by
  induction K generalizing r with
  | nil => exact h ▸ List.Subset.refl _
  | cons f rest ih =>
    obtain ⟨rfl, hrest⟩ := h
    exact List.Subset.trans f.calls_modes (ih hrest)

/-- The mode of a line is among those of the request it runs for. -/
theorem modeWrittenAt_mem {b : Routine} {k : Control} {m : ModeName} (h : controlNested b k)
    (hm : modeWrittenAt k = some m) : m ∈ b.modes := by
  unfold modeWrittenAt at hm
  split at hm
  case h_9 => cases hm
  all_goals
    cases hm
    exact nested_modes h.1.2 (by simp [Frame.routine, Routine.modes])

/-- From a state of a run on, the mode is kept or takes one of the modes of the run's routine. -/
theorem Steps.mode {b : Routine} {t u : State} (h : Steps t u) (ht : ControlInv b t) (hreq : t.request = none) :
    u.card.mode = t.card.mode ∨ ∃ m ∈ b.modes, u.card.mode = m.bits := by
  induction h with
  | here => exact .inl rfl
  | step t v u hstep _ ih =>
    obtain ⟨-, rfl⟩ | ⟨p, K, hat, rfl⟩ | ⟨q, i, -, hsome, -⟩ := step_cases hstep
    · exact ih ht hreq
    · obtain hkept | hwritten := ih (ht.advance hat.control) ((advance_performs t p K).request.trans hreq)
      · rw [hkept]
        refine (advance_mode p K t).imp_right fun ⟨m, hm, hbits⟩ => ⟨m, modeWrittenAt_mem ht.nesting ?_, hbits⟩
        rwa [hat.control]
      · exact .inr hwritten
    · cases hreq.symm.trans hsome

theorem exec_mode {i : Instr} {s t : State} (h : exec i s = .next t) (hi : i ≠ .allocateDevice) :
    t.card.mode = s.card.mode := by
  obtain hsame | ⟨hinit, -⟩ | ⟨-, hfreed⟩ := exec_card h
  · exact congrArg Card.mode hsame
  · exact absurd hinit hi
  · rw [hfreed]

/-- Settles O19: `advance_mode` and `advance_writes_mode` are the steps, `Steps.mode` the runs. -/
theorem modeChangesOnlyInItsWriters : Obligations.ModeChangesOnlyInItsWriters := by
  unfold Obligations.ModeChangesOnlyInItsWriters
  refine ⟨fun s t p K hat hstep => ?_, fun s t i hi hexec => exec_mode hexec hi, fun s u i hreq hi hrun => ?_⟩
  · obtain rfl := Host.Outcome.next.inj ((step_at hat).symm.trans hstep)
    rw [hat.control]
    refine ⟨fun hnone => (advance_mode p K s).resolve_right fun ⟨m, hm, _⟩ => ?_, fun m hm => advance_writes_mode s hm⟩
    cases hnone.symm.trans hm
  · obtain ⟨t, hexec, hsteps⟩ := hrun
    cases hb : routineOf i with
    | none => exact absurd (exec_none hb hexec) hi
    | some b =>
      rw [← exec_mode hexec hi, ← routine_modes_eq hb]
      exact hsteps.mode (exec_controlInv hb hexec) ((exec_performs hexec).request.trans hreq)

end Sys2Proof.Machine

/-! Whole requests of the lifecycle (45_lifecycle.md): where the steps of a request lead, allocation (R300, R301) and teardown
(R302, R303). -/

namespace Sys2Proof.Machine

/-! ## The end of a request -/

section

variable {i : Instr} {s t v : State} {ok : Bool} {code : Option Result} {frames : List (BitVec 48)}

/-- Steps that make no call and end the request. -/
theorem Performs.completesSilently (h : Performs none s.begin t) (hexec : exec i s = .next v)
    (hsteps : Steps v (t.finish ok code)) : CompletesSilently i s t.card ok code :=
  have hfinish := h.finish ok code
  ⟨v, hexec, _, hsteps,
    ⟨hfinish.host, hfinish.params, hfinish.request, rfl, rfl, rfl, rfl, rfl, rfl, fun _ => by rw [hfinish.trace]; rfl⟩,
    fun a => congrArg (Memory.read · a) (hfinish.silent rfl).1, hfinish.trace⟩

/-- Steps that send these frames and end the request. -/
theorem Ran.completes (h : Ran s.begin t frames) (hexec : exec i s = .next v) (hsteps : Steps v (t.finish ok code)) :
    Completes i s t.card ok code frames :=
  ⟨v, hexec, _, hsteps, h.finishes ok code, h.memorySame⟩

/-- Once an operation has made its first call, that call is the first of its trace. -/
theorem Steps.first_call {p : Point} {K : List Frame} {e : HostEvent} {u : State} (h : Steps t u) (hat : At t p K)
    (hcall : callAt t p = some e) (htrace : t.trace = []) : u.trace = [] ∨ u.trace.getLast? = some e := by
  cases h with
  | here => exact .inl htrace
  | step _ v _ hstep hrest =>
    obtain rfl := Host.Outcome.next.inj ((step_at hat).symm.trans hstep)
    have hperforms := advance_performs t p K
    obtain ⟨-, l, hl⟩ := hrest.grows (hperforms.request.trans hat.request)
    exact .inr (by rw [hl, hperforms.trace, hcall, htrace]; exact List.getLast?_concat)

end

/-! ## Allocation (R300, R301) -/

/-- Settles O38: the branches of `allocateDevice`; none of them makes a call. -/
theorem allocateDeviceWritesTheResetValues : Obligations.AllocateDeviceWritesTheResetValues := by
  unfold Obligations.AllocateDeviceWritesTheResetValues
  intro s hidle
  have hexec : exec .allocateDevice s = .next (allocateDevice s.begin) := if_neg (not_not_intro hidle)
  have hbegin := Performs.refl s.begin
  have hdrawn := hbegin.takeAcquisition
  refine ⟨fun hallocated => ?_, fun hfree hpoor => ?_, fun hfree hrich hinterface => ?_, fun hfree hrich hinterface => ?_⟩
  · have hfail : allocateDevice s.begin = s.begin.finish false none := if_pos hallocated
    exact hbegin.completesSilently hexec (hfail ▸ .here _)
  · have hfail : allocateDevice s.begin = s.begin.takeAcquisition.finish false (some .memErr) :=
      (if_neg (ne_true_of_eq_false hfree)).trans (if_pos hpoor)
    exact hdrawn.completesSilently hexec (hfail ▸ .here _)
  · rw [interfaceSupplied_iff, Bool.not_eq_true] at hinterface
    have hfail : allocateDevice s.begin = s.begin.takeAcquisition.finish false none :=
      (if_neg (ne_true_of_eq_false hfree)).trans ((if_neg (ne_false_of_eq_true hrich)).trans (if_pos hinterface))
    exact hdrawn.completesSilently hexec (hfail ▸ .here _)
  · rw [interfaceSupplied_iff] at hinterface
    have hreset : allocateDevice s.begin = (s.begin.takeAcquisition.setCard (Card.initial true)).finish true (some .well) :=
      (if_neg (ne_true_of_eq_false hfree)).trans
        ((if_neg (ne_false_of_eq_true hrich)).trans (if_neg (ne_false_of_eq_true hinterface)))
    exact (hdrawn.setCard (Card.initial true)).completesSilently hexec (hreset ▸ .here _)

/-! ## Teardown (R302, R303) -/

/-- R303: what the teardown sends and what it leaves in the Card. -/
theorem inactivate_law (s : State) :
    Ran s (inactivate s) [0x470000000083#48, 0x400000000095#48] ∧ (inactivate s).card = tornDown s := by
  have hbus : SameEnv (hostSetBusWidth .one s) s := ⟨rfl, rfl, rfl⟩
  obtain ⟨hran, hcard, henv, -⟩ := deselect_law (hostSetBusWidth .one s)
  obtain ⟨hranIdle, -, -, hcardIdle, -⟩ := goIdle_law (selectCard false (hostSetBusWidth .one s)).1
  refine ⟨(((hostSetBusWidth_ran .one s).trans hran).trans hranIdle).then (ran_setMode _ .inactive), ?_⟩
  have hsend := (henv.trans (hbus.afterExchange false)).takeResponse.nextSend
  rw [inactivate, setMode_card, hcardIdle, hsend, hcard, tornDown]
  split <;> rfl

/-- R302: the return of the teardown to `free_device`. -/
theorem run_ended_freeDevice (ok : Bool) (code : Option Result) (K : List Frame) {s : State} (h : s.request = none) :
    Steps (s.endWith ok code (.freeDevice :: K)) (freed s) :=
  Steps.advance (at_goto s (.ended ok code) (.freeDevice :: K) h) (.here _)

theorem tornDown_begin (s : State) : tornDown s.begin = tornDown s := by
  simp only [tornDown, afterExchange_begin, takeResponse_begin, nextSend_begin, begin_card]

section

variable {s : State} (hs : Ready s)
include hs

theorem Ready.exec_inactivateDevice : exec .inactivateDevice s = .next (enterInactivateDevice [] s.begin) :=
  runOperation_ready enterInactivateDevice s hs

theorem Ready.inactivateDevice_completes :
    Completes .inactivateDevice s (tornDown s) true (some .well) [0x470000000083#48, 0x400000000095#48] := by
  obtain ⟨hran, hcard⟩ := inactivate_law s.begin
  rw [tornDown_begin] at hcard
  exact hcard ▸ hran.completes hs.exec_inactivateDevice
    ((run_inactivate [] s.begin hs.request).trans (run_ended true _ _ (hran.request.trans hs.request)))

theorem Ready.exec_freeDevice : exec .freeDevice s = .next (enterFreeDevice [] s.begin) :=
  runOperation_ready enterFreeDevice s hs

/-- R302: an inactive card is not torn down again. -/
theorem Ready.freeDevice_inactive (hmode : s.card.mode = ModeName.inactive.bits) :
    CompletesSilently .freeDevice s { s.card with allocated := false } true (some .well) := by
  have henter : enterFreeDevice [] s.begin = freed s.begin := if_pos (decide_eq_true hmode)
  exact ((Performs.refl s.begin).setCard { s.card with allocated := false }).completesSilently hs.exec_freeDevice
    (henter ▸ .here _)

/-- R302: any other card is torn down first, and the return of the teardown frees the Card. -/
theorem Ready.freeDevice_completes (hmode : s.card.mode ≠ ModeName.inactive.bits) :
    Completes .freeDevice s { tornDown s with allocated := false } true (some .well)
      [0x470000000083#48, 0x400000000095#48] := by
  obtain ⟨hran, hcard⟩ := inactivate_law s.begin
  rw [tornDown_begin] at hcard
  have henter : enterFreeDevice [] s.begin = enterInactivateDevice [.freeDevice] s.begin :=
    if_neg (mt of_decide_eq_true hmode)
  have hsteps := run_inactivate [.freeDevice] s.begin hs.request
  have hreturn := run_ended_freeDevice true (some .well) [] (hran.request.trans hs.request)
  have hall := (hran.then (ran_setCard _ { (inactivate s.begin).card with allocated := false })).completes
    hs.exec_freeDevice (henter ▸ hsteps.trans hreturn)
  rwa [setCard_card, hcard] at hall

end

/-- Settles O39: `inactivate_law` is the teardown, `Steps.first_call` its bus width. -/
theorem teardownDeselectsAndGoesIdle : Obligations.TeardownDeselectsAndGoesIdle := by
  unfold Obligations.TeardownDeselectsAndGoesIdle
  refine fun s hs => ⟨hs.inactivateDevice_completes, hs.freeDevice_inactive, hs.freeDevice_completes, ?_⟩
  rintro u ⟨t, hexec, hsteps⟩
  obtain rfl := Host.Outcome.next.inj (hs.exec_inactivateDevice.symm.trans hexec)
  exact hsteps.first_call (at_goto s.begin .teardownBus [] hs.request) rfl rfl

end Sys2Proof.Machine

/-! The positions of `detect` and `to_normal` (45_lifecycle.md R291 to R298) one by one: the insertion wait, the set-up before CMD0,
an iteration of the ACMD41 loop, and the ways to fail. -/

namespace Sys2Proof.Machine

/-- One step to another position, the payload buffer as it was. -/
theorem At.reaches {s t : State} {p q : Point} {K L : List Frame} {c : Card} {frames : List (BitVec 48)}
    (hat : At s p K) (hran : Ran s t frames) (hstep : advance p K s = t.goto q L) (hne : p ≠ q)
    (hpayload : t.payload = s.payload) (hcard : t.card = c) : Reaches (step s) s q L c frames :=
  hcard ▸ hran.reaches hat hne hpayload (Steps.advance hat (hstep ▸ .here _))

/-! ## The insertion wait (R291 step 1, R292) -/

section

variable {k : Nat} {K : List Frame} {s : State}

theorem insertionCall_present (h : s.insertedAnswer = true) :
    insertionCall k K s = (hostIsCardInserted s).1.goto .identificationBus K := if_pos h

theorem insertionCall_timeout (h : s.insertedAnswer = false) (hlimit : limitReached s.params.insertPollLimit (k + 1) = true) :
    insertionCall k K s = (hostIsCardInserted s).1.endWith false (some .timeout) K :=
  (if_neg (ne_true_of_eq_false h)).trans (if_pos hlimit)

theorem insertionCall_again (h : s.insertedAnswer = false) (hlimit : limitReached s.params.insertPollLimit (k + 1) = false) :
    insertionCall k K s = (hostIsCardInserted s).1.goto (.insertion (k + 1)) K :=
  (if_neg (ne_true_of_eq_false h)).trans (if_neg (ne_true_of_eq_false hlimit))

end

/-- Settles O40: the three branches of `insertionCall`. -/
theorem insertionWaitPollsUpToItsBound : Obligations.InsertionWaitPollsUpToItsBound := by
  unfold Obligations.InsertionWaitPollsUpToItsBound
  refine ⟨fun s hs => ⟨runOperation_ready enterDetect s hs, runOperation_ready enterInitialDevice s hs⟩,
    fun s k K hat => ?_⟩
  have hran := hostIsCardInserted_ran s
  refine ⟨fun h => ?_, fun h hlimit => ?_, fun h hlimit => ?_⟩
  · exact hat.reaches hran (insertionCall_present h) nofun rfl rfl
  · exact hat.reaches hran (insertionCall_timeout h hlimit) nofun rfl rfl
  · exact hat.reaches hran (insertionCall_again h hlimit) (fun he => by injection he; omega) rfl rfl

/-! ## The set-up before CMD0 (R291 steps 1 to 3) -/

/-- With a card in the slot: the bus at 1 bit and the clock at 400 kHz. -/
def beforeActivation (s : State) : State :=
  hostSetClockFrequency .f400K (hostSetBusWidth .one (hostIsCardInserted s).1)

/-- And after `activate_card`. -/
def afterActivation (s : State) : State := (hostActivateCard (beforeActivation s)).1

theorem beforeActivation_ran (s : State) : Ran s (beforeActivation s) [] :=
  ((hostIsCardInserted_ran s).then (hostSetBusWidth_ran .one _)).then (hostSetClockFrequency_ran .f400K _)

theorem afterActivation_ran (s : State) : Ran s (afterActivation s) [] :=
  (beforeActivation_ran s).then (hostActivateCard_ran _)

@[simp] theorem afterActivation_card (s : State) :
    (afterActivation s).card = { s.card with busWidth := .one, clockClass := .f400K } := rfl

theorem activatedAnswer_script {s : State} {a : Bool} {act : List Bool} (h : s.env.activated = a :: act) :
    s.activatedAnswer = a := by
  rw [State.activatedAnswer, h]
  rfl

section

variable (K : List Frame) (s : State) {act : List Bool} (hreq : s.request = none)
include hreq

theorem run_activation_true (hact : s.env.activated = true :: act) :
    Steps (s.goto .activation K) (enterGoIdle (.detectIdle :: K) (hostActivateCard s).1) := by
  refine Steps.advance (at_goto s _ K hreq) ?_
  show Steps (if s.activatedAnswer = false then _ else enterGoIdle (.detectIdle :: K) (hostActivateCard s).1) _
  rw [activatedAnswer_script hact]
  exact .here _

theorem run_activation_false (hact : s.env.activated = false :: act) :
    Steps (s.goto .activation K) ((hostActivateCard s).1.endWith false none K) := by
  refine Steps.advance (at_goto s _ K hreq) ?_
  show Steps (if s.activatedAnswer = false then (hostActivateCard s).1.endWith false none K else _) _
  rw [activatedAnswer_script hact]
  exact .here _

end

section

variable {ins act : List Bool} {s : State} (K : List Frame) (hreq : s.request = none) (hins : s.env.inserted = true :: ins)
include hreq hins

/-- R291 steps 1 and 2. -/
theorem run_detect_setup : Steps (s.goto (.insertion 0) K)
    ((beforeActivation s).goto .activation K) := by
  have hanswer : (s.goto (.insertion 0) K).insertedAnswer = true := by simp [State.insertedAnswer, hins]
  refine Steps.advance (at_goto s _ K hreq) ?_
  rw [advance, insertionCall_present hanswer]
  exact Steps.advance (at_goto _ _ K hreq) (Steps.advance (at_goto _ _ K hreq) (.here _))

/-- R291 step 3: a card that activates gets CMD0. -/
theorem run_detect_activated (hact : s.env.activated = true :: act) :
    Steps (s.goto (.insertion 0) K) (enterGoIdle (.detectIdle :: K) (afterActivation s)) :=
  (run_detect_setup K hreq hins).trans (run_activation_true K _ ((beforeActivation_ran s).request.trans hreq) hact)

/-- R291 step 3: a false activation ends `detect`. -/
theorem run_detect_not_activated (hact : s.env.activated = false :: act) :
    Steps (s.goto (.insertion 0) K) ((afterActivation s).endWith false none K) :=
  (run_detect_setup K hreq hins).trans (run_activation_false K _ ((beforeActivation_ran s).request.trans hreq) hact)

end

/-! ## The failures of `detect` (R291) -/

/-- A call of `detect` that fails ends it. -/
theorem answer_detect_failed {f : Frame} {r : Result} (K : List Frame) (s : State)
    (hf : f ∈ [Frame.detectIdle, .detectVoltage, .detectCid, .detectRca]) (hr : r ≠ .well) :
    answer f r K s = s.endWith false (some r) K := by
  simp only [List.mem_cons, List.not_mem_nil, or_false] at hf
  obtain rfl | rfl | rfl | rfl := hf <;> exact if_neg hr

theorem run_detect_cmd0_failed {K : List Frame} {s : State} (hreq : s.request = none) (h : (goIdle s).2 ≠ .well) :
    Steps (enterGoIdle (.detectIdle :: K) s) ((goIdle s).1.endWith false (some (goIdle s).2) K) := by
  refine (run_goIdle (.detectIdle :: K) s hreq).trans (Steps.answer ((goIdle_law s).1.request.trans hreq) ?_)
  rw [answer_detect_failed K _ (List.mem_cons_self ..) h]
  exact .here _

theorem Ready.exec_detect {s : State} (hs : Ready s) : exec .detect s = .next (s.begin.goto (.insertion 0) []) :=
  runOperation_ready enterDetect s hs

section

variable {s : State} {ins act : List Bool} (hs : Ready s) (hins : s.env.inserted = true :: ins)
include hs hins

theorem Ready.detect_not_activated (hact : s.env.activated = false :: act) :
    Completes .detect s { s.card with busWidth := .one, clockClass := .f400K } false none [] :=
  (afterActivation_ran s.begin).completes hs.exec_detect
    ((run_detect_not_activated [] (s := s.begin) hs.request hins hact).trans
      (run_ended false none _ ((afterActivation_ran s.begin).request.trans hs.request)))

theorem Ready.detect_cmd0_failed {e : HostError} {sc : List HostResult} (hact : s.env.activated = true :: act)
    (hsend : s.env.sendCommands = .error e :: sc) :
    Completes .detect s { s.card with busWidth := .one, clockClass := .f400K } false (some (errorCode e))
      [0x400000000095#48] := by
  obtain ⟨hran, hresult, -, hcard, -⟩ := goIdle_law (afterActivation s.begin)
  have herror : nextSend (afterActivation s.begin).takeResponse = .error e := nextSend_script _ _ sc hsend
  rw [herror] at hresult hcard
  have hall := (afterActivation_ran s.begin).trans hran
  have hreq := hall.request.trans hs.request
  have hcmd0 := run_detect_cmd0_failed (K := []) ((afterActivation_ran s.begin).request.trans hs.request)
    (hresult ▸ errorCode_ne_well e)
  rw [hresult] at hcmd0
  have hsteps := ((run_detect_activated [] (s := s.begin) hs.request hins hact).trans hcmd0).trans
    (run_ended false _ _ hreq)
  have hcompletes := hall.completes hs.exec_detect hsteps
  rwa [hcard] at hcompletes

end

/-- Settles O43: before CMD0 (`run_detect_not_activated`), at CMD0, and after a later call (`answer_detect_failed`). -/
theorem detectFailsAtOnce : Obligations.DetectFailsAtOnce := by
  unfold Obligations.DetectFailsAtOnce
  refine ⟨fun s ins act hs hins hact => hs.detect_not_activated hins hact,
    fun s ins act e sc hs hins hact hsend => hs.detect_cmd0_failed hins hact hsend, fun s r f K hf hr hat => ?_,
    fun s r K hat => step_at hat⟩
  exact (step_at hat).trans (congrArg _ (answer_detect_failed K s hf hr))

/-! ## An iteration of the ACMD41 loop (R293) -/

theorem appPrefixResult_ne_retry (s : State) : appPrefixResult s ≠ .retry := by
  unfold appPrefixResult r1Result
  cases nextSend s with
  | error e => cases e <;> nofun
  | well => dsimp only; split_ifs <;> nofun

/-- Every result but `Well` and `Retry` ends `detect`. -/
theorem detectOpCondAnswered_failed (v2 : Bool) (k : Nat) {r : Result} (K : List Frame) (s : State) (hwell : r ≠ .well)
    (hretry : r ≠ .retry) : detectOpCondAnswered v2 k r K s = s.endWith false (some r) K := by
  cases r
  case well => exact absurd rfl hwell
  case retry => exact absurd rfl hretry
  all_goals rfl

/-- R291 step 7: the 1.8 V switch begins where host and card support it. -/
theorem detectOpCondAnswered_switches (v2 : Bool) (k : Nat) (K : List Frame) {s : State} (hhost : s.host.supports1V8 = true)
    (hocr : s.card.ocr.getLsbD 24 = true) : detectOpCondAnswered v2 k .well K s =
      startExchange (newCmd 11#6 0#32 .r1) (.voltage :: .detectVoltage :: K) (s.setMode .ready) := by
  have hboth : ((s.setMode .ready).host.supports1V8 && ocrS18A (s.setMode .ready).card.ocr) = true :=
    Bool.and_eq_true_iff.2 ⟨hhost, hocr⟩
  have hallowed : voltageSwitchAllowed (s.setMode .ready) = true := (voltageSwitchAllowed_iff _).2 ⟨hhost, hocr, rfl⟩
  exact (if_pos hboth).trans (if_neg (ne_false_of_eq_true hallowed))

/-- R291 step 8: else CMD2 follows. -/
theorem detectOpCondAnswered_reads_cid (v2 : Bool) (k : Nat) (K : List Frame) {s : State}
    (h : s.host.supports1V8 = false ∨ s.card.ocr.getLsbD 24 = false) : detectOpCondAnswered v2 k .well K s =
      startExchange (newCmd 2#6 0#32 .r2) (.cid :: .detectCid :: K) (s.setMode .ready) := by
  have hnot : ((s.setMode .ready).host.supports1V8 && ocrS18A (s.setMode .ready).card.ocr) = false :=
    Bool.and_eq_false_iff.2 h
  exact if_neg (ne_true_of_eq_false hnot)

section

variable {v2 : Bool} {k : Nat} {K : List Frame} {s : State} (hat : At s (.opCondIteration v2 k) K)
include hat

/-- The steps of an iteration within the budget, up to what its answer decides. -/
theorem At.opCond (hk : k ≤ s.params.acmd41LoopBudget) :
    Steps s (detectOpCondAnswered v2 k (sendOpCond (acmd41Arg s v2) s).2 K (sendOpCond (acmd41Arg s v2) s).1) := by
  have hsteps := run_opCondIteration_answer v2 k K s hat.request hk
  rwa [hat.goto] at hsteps

/-- An iteration whose ACMD41 gives `r` with the Card `c`, and goes on at `q`. -/
theorem At.opCond_reaches {r : Result} {c : Card} {q : Point} {frames : List (BitVec 48)}
    (hk : k ≤ s.params.acmd41LoopBudget) (hran : Ran s (sendOpCond (acmd41Arg s v2) s).1 frames)
    (hend : (sendOpCond (acmd41Arg s v2) s).2 = r ∧ (sendOpCond (acmd41Arg s v2) s).1.card = c)
    (hpayload : (sendOpCond (acmd41Arg s v2) s).1.payload = s.payload)
    (hanswer : ∀ t : State, detectOpCondAnswered v2 k r K t = t.goto q K) (hne : Point.opCondIteration v2 k ≠ q) :
    Reaches (step s) s q K c frames := by
  obtain ⟨hresult, rfl⟩ := hend
  exact hran.reaches hat hne hpayload (hanswer _ ▸ hresult ▸ hat.opCond hk)

/-- An iteration whose ACMD41 succeeds with the Card `c`, and goes on with an exchange. -/
theorem At.opCond_starts {c : Card} {index : BitVec 6} {type : ResponseType} {L : List Frame} {frames : List (BitVec 48)}
    (hk : k ≤ s.params.acmd41LoopBudget) (hran : Ran s (sendOpCond (acmd41Arg s v2) s).1 frames)
    (hend : (sendOpCond (acmd41Arg s v2) s).2 = .well ∧ (sendOpCond (acmd41Arg s v2) s).1.card = c)
    (hpayload : (sendOpCond (acmd41Arg s v2) s).1.payload = s.payload)
    (hanswer : ∀ t : State, t.host = s.host → t.card = c →
      detectOpCondAnswered v2 k .well K t = startExchange (newCmd index 0#32 type) L (t.setMode .ready)) :
    Starts (step s) s index 0#32 type none L { c with mode := ModeName.ready.bits } frames := by
  obtain ⟨hresult, rfl⟩ := hend
  have hsteps := hat.opCond hk
  rw [hresult, hanswer _ hran.host rfl] at hsteps
  have hcall : Point.opCondIteration v2 k ≠ exchangeCall s := by unfold exchangeCall; split <;> nofun
  exact (hran.then (ran_setMode _ .ready)).starts (d := none) hat hcall ((setMode_payload _ .ready).trans hpayload) hsteps

end

/-- Settles O45: `sendOpCond_law` is the iteration, `detectOpCondAnswered` what each of its results leads to. -/
theorem acmd41LoopContinuesOnlyOnRetry : Obligations.Acmd41LoopContinuesOnlyOnRetry := by
  unfold Obligations.Acmd41LoopContinuesOnlyOnRetry
  intro s v2 k K hat
  refine ⟨fun hover => hat.reaches (.refl s) (if_pos hover) nofun rfl rfl, fun hk => ?_⟩
  obtain ⟨hprefix, hsent⟩ := sendOpCond_law (acmd41Arg s v2) s
  rw [acmd41Sent_arg] at hsent
  refine ⟨fun hp => ?_, fun hp => ?_⟩
  · obtain ⟨hran, hresult, hcard, hpayload⟩ := hprefix hp
    exact hat.opCond_reaches hk hran ⟨hresult, hcard⟩ hpayload
      (fun t => detectOpCondAnswered_failed v2 k K t hp (appPrefixResult_ne_retry s)) nofun
  obtain ⟨hran, hpayload, hfail, hwell⟩ := hsent hp
  refine ⟨fun e he => ?_, fun hw hbusy => ?_, fun hw w hword hready => ?_⟩
  · exact hat.opCond_reaches hk hran (hfail e he) hpayload
      (fun t => detectOpCondAnswered_failed v2 k K t (errorCode_ne_well e) (hostCode_not_sentinel (.error e)).1) nofun
  · obtain ⟨-, hretry, -⟩ := hwell hw
    exact hat.opCond_reaches hk hran (hretry hbusy) hpayload (fun _ => rfl) (fun he => by injection he; omega)
  · subst hword
    obtain ⟨-, -, hstored⟩ := hwell hw
    refine ⟨fun hhost hocr => ?_, fun hnone => ?_⟩
    · exact hat.opCond_starts hk hran (hstored hready) hpayload fun t hsame hcard =>
        detectOpCondAnswered_switches v2 k K (hsame ▸ hhost) (hcard ▸ hocr)
    · exact hat.opCond_starts hk hran (hstored hready) hpayload fun t hsame hcard =>
        detectOpCondAnswered_reads_cid v2 k K (hsame ▸ hcard ▸ hnone)

/-! ## The failures of `to_normal` (R294, R297, R298) -/

/-- The Card after the failure path of `to_normal` (R297). -/
def Card.deselected (c : Card) : Card :=
  { c with mode := if c.mode = ModeName.transfer.bits then ModeName.standBy.bits else c.mode }

/-- R297: the last line of the failure path. -/
theorem normalDeselectAnswered_eq (r : Result) (K : List Frame) (s : State) : ∃ t,
    normalDeselectAnswered r K s = t.endWith false (some r) K ∧ Ran s t [] ∧ t.card = s.card.deselected ∧
      t.payload = s.payload := by
  refine ⟨if s.card.inMode .transfer then s.setMode .standBy else s, rfl, ?_, normalDeselectAnswered_card r K s, ?_⟩
  · split
    · exact ran_setMode s .standBy
    · exact .refl s
  · split <;> rfl

/-- R297: a failure sends one deselect and ends `to_normal` with the failure's code. -/
theorem run_normalFails_ends (r : Result) (K : List Frame) {s : State} (hreq : s.request = none) : ∃ t,
    Steps (normalFails r K s) (t.endWith false (some r) K) ∧ Ran s t [0x470000000083#48] ∧ t.card = s.card.deselected ∧
      t.payload = s.payload := by
  obtain ⟨hran, hcard, -, hpayload⟩ := deselect_law s
  obtain ⟨t, hend, hranEnd, hcardEnd, hpayloadEnd⟩ := normalDeselectAnswered_eq r K (selectCard false s).1
  refine ⟨t, ?_, hran.then hranEnd, hcard ▸ hcardEnd, hpayloadEnd.trans hpayload⟩
  rw [← hend]
  exact (run_selectCard false (.normalDeselect r :: K) s hreq).trans
    (Steps.answer (hran.request.trans hreq) (.here _))

/-- What is a failure of `to_normal`: any result but `Well`, and of a negotiation not `NotSupported` either (R298). -/
theorem answer_normal_failed {f : Frame} {r : Result} (K : List Frame) (s : State)
    (h : (f ∈ [Frame.normalCsd, .normalSelect, .normalScr, .normalLength] ∧ r ≠ .well) ∨
      (f ∈ [Frame.normalSpeed, .normalDrive, .normalPower] ∧ r ≠ .well ∧ r ≠ .notSupported)) :
    answer f r K s = normalFails r K s := by
  simp only [List.mem_cons, List.not_mem_nil, or_false] at h
  obtain ⟨hf, hr⟩ | ⟨hf, hr, hno⟩ := h
  · obtain rfl | rfl | rfl | rfl := hf <;> exact if_neg hr
  · have hfatal : ¬ tolerated r = true := by simp [tolerated, hr, hno]
    obtain rfl | rfl | rfl := hf <;> exact if_neg hfatal

theorem tolerated_of_or {r : Result} (h : r = .well ∨ r = .notSupported) : tolerated r = true := by
  obtain rfl | rfl := h <;> rfl

section

variable {s : State} (hs : Ready s)
include hs

theorem Ready.exec_toNormal : exec .toNormal s = .next (enterToNormal [] s.begin) := runOperation_ready enterToNormal s hs

/-- R294: the guard. -/
theorem Ready.toNormal_refused (h : s.card.rca = 0#16 ∨ s.card.mode = ModeName.inactive.bits) :
    CompletesSilently .toNormal s s.card false none := by
  have hguard : enterToNormal [] s.begin = s.begin.endWith false none [] := if_pos (h.imp_right decide_eq_true)
  exact (Performs.refl s.begin).completesSilently hs.exec_toNormal (hguard ▸ run_ended false none s.begin hs.request)

/-- R294, R297: a failing CMD9. -/
theorem Ready.toNormal_cmd9_failed {e : HostError} (hrca : s.card.rca ≠ 0#16) (hmode : s.card.mode ≠ ModeName.inactive.bits)
    (hsend : nextSend s = .error e) :
    Completes .toNormal s s.card.deselected false (some (errorCode e))
      [frameOf 9#6 (s.card.rca ++ 0#16), 0x470000000083#48] := by
  obtain ⟨hran, -, hfail, -⟩ := getCsd_law s.begin
  obtain ⟨hresult, hcard⟩ := hfail e ((nextSend_begin s).trans hsend)
  have hreq := hran.request.trans hs.request
  obtain ⟨t, hsteps, hranEnd, hcardEnd, -⟩ := run_normalFails_ends (errorCode e) [] hreq
  have hguard : enterToNormal [] s.begin = enterGetCsd [.normalCsd] s.begin :=
    if_neg (not_or.2 ⟨hrca, mt of_decide_eq_true hmode⟩)
  have hanswer := answer_normal_failed (f := .normalCsd) [] (getCsd s.begin).1
    (.inl ⟨List.mem_cons_self .., errorCode_ne_well e⟩)
  have hcsd : Steps (enterToNormal [] s.begin) (t.endWith false (some (errorCode e)) []) := by
    rw [hguard]
    refine (run_getCsd [.normalCsd] s.begin hs.request).trans (Steps.answer hreq ?_)
    rwa [hresult, hanswer]
  have hall := hran.trans hranEnd
  have hcompletes := hall.completes hs.exec_toNormal (hcsd.trans (run_ended false _ t (hall.request.trans hs.request)))
  rwa [hcardEnd, hcard] at hcompletes

end

/-- Settles O49: the guard, the failures (`answer_normal_failed`, `run_normalFails_ends`), what is tolerated, and CMD9. -/
theorem toNormalRefusesOrFailsWithADeselect : Obligations.ToNormalRefusesOrFailsWithADeselect := by
  unfold Obligations.ToNormalRefusesOrFailsWithADeselect
  refine ⟨fun s hs h => hs.toNormal_refused h, fun s r f K hat h => ?_, fun s r K h => ?_,
    fun s e hs hrca hmode hsend => hs.toNormal_cmd9_failed hrca hmode hsend⟩
  · obtain ⟨t, hsteps, hran, hcard, hpayload⟩ := run_normalFails_ends r K hat.request
    have hfirst : advance (.returned r) (f :: K) s = normalFails r K s := answer_normal_failed K s h
    have hreach := hran.reaches (q := .ended false (some r)) (L := K) hat nofun hpayload
      (Steps.advance hat (hfirst ▸ hsteps))
    rwa [hcard] at hreach
  · have htolerated := tolerated_of_or h
    exact ⟨fun hat => (step_at hat).trans (congrArg _ (if_pos htolerated)),
      fun hat => (step_at hat).trans (congrArg _ (if_pos htolerated)),
      fun hat => (step_at hat).trans (congrArg _ (if_pos htolerated))⟩

end Sys2Proof.Machine

/-! Controllers in a scripted environment: `Stage` is where a sequence of calls stands, `Ends` what a call leaves, and one lemma for
each controller that the lifecycle (45_lifecycle.md) calls says what it takes from the scripts and what it adds to the Card and
the frames. The laws of `Laws/Lifecycle.lean` and `Laws/Payloads.lean` are read here with their premises met by a script. -/

namespace Sys2Proof.Machine

/-! ## The scripts -/

/-- The scripts of the answers that a sequence of controllers takes. -/
structure Scripts where
  sends : List HostResult
  responses : List ResponseWords
  voltages : List HostResult
  recvDatas : List (HostResult × List Byte)
  acquisitions : List Bool

def State.scripts (s : State) : Scripts :=
  ⟨s.env.sendCommands, s.env.responses, s.env.voltages, s.env.recvDatas, s.env.acquisitions⟩

/-- The scripts after an exchange that reads a response. -/
def Scripts.read (S : Scripts) : Scripts := { S with sends := S.sends.tail, responses := S.responses.tail }

theorem SameEnv.scripts {s t : State} (h : SameEnv s t) : s.scripts = t.scripts := by
  unfold State.scripts
  rw [h.env]

theorem scripts_begin {s : State} {sc vs : List HostResult} {rs : List ResponseWords} {rd : List (HostResult × List Byte)}
    {acq : List Bool} (hsends : s.env.sendCommands = sc) (hresponses : s.env.responses = rs) (hvoltages : s.env.voltages = vs)
    (hdatas : s.env.recvDatas = rd) (hacquisitions : s.env.acquisitions = acq) :
    s.begin.scripts = ⟨sc, rs, vs, rd, acq⟩ := by
  subst hsends hresponses hvoltages hdatas hacquisitions
  rfl

theorem hostIsCardInserted_scripts (s : State) : (hostIsCardInserted s).1.scripts = s.scripts := rfl

theorem hostSetBusWidth_scripts (w : BusWidth) (s : State) : (hostSetBusWidth w s).scripts = s.scripts := rfl

theorem hostSetClockFrequency_scripts (k : ClockClass) (s : State) : (hostSetClockFrequency k s).scripts = s.scripts := rfl

theorem hostActivateCard_scripts (s : State) : (hostActivateCard s).1.scripts = s.scripts := rfl

theorem scripts_afterExchange_true (s : State) : (afterExchange true s).scripts = s.scripts.read := by
  obtain ⟨hsends, hresponses, -, hdatas, hvoltages, hacquisitions⟩ := afterExchange_scripts true s
  simp only [State.scripts, Scripts.read, hsends, hresponses, hdatas, hvoltages, hacquisitions, if_true]

theorem scripts_afterExchange_false (s : State) :
    (afterExchange false s).scripts = { s.scripts with sends := s.scripts.sends.tail } := by
  obtain ⟨hsends, hresponses, -, hdatas, hvoltages, hacquisitions⟩ := afterExchange_scripts false s
  simp only [State.scripts, hsends, hresponses, hdatas, hvoltages, hacquisitions, Bool.false_eq_true, if_false]

/-! ## Stages of a sequence of calls -/

/-- A sequence of calls that began in `s₀` has come to `s`: these scripts are left, the Card is `c`, and these frames went out. -/
structure Stage (s₀ : State) (S : Scripts) (c : Card) (frames : List (BitVec 48)) (s : State) : Prop where
  ran : Ran s₀ s frames
  card : s.card = c
  scripts : s.scripts = S

/-- A call in such a sequence has returned `r`; `p` is the state it leaves and its result. -/
structure Ends (r : Result) (s₀ : State) (S : Scripts) (c : Card) (frames : List (BitVec 48)) (p : State × Result) :
    Prop where
  result : p.2 = r
  stage : Stage s₀ S c frames p.1

section

variable {s₀ s t : State} {S T : Scripts} {c d : Card} {f g : List (BitVec 48)} {p : State × Result} {r : Result}
  {k : State → State × Result}

theorem Stage.refl (s : State) : Stage s s.scripts s.card [] s := ⟨.refl s, rfl, rfl⟩

theorem Stage.to (h : Stage s₀ S c f s) (hran : Ran s t g) (hcard : t.card = d) (hscripts : t.scripts = T) :
    Stage s₀ T d (f ++ g) t := ⟨h.ran.trans hran, hcard, hscripts⟩

/-- A part of the sequence that sends no frame. -/
theorem Stage.silent (h : Stage s₀ S c f s) (hran : Ran s t []) (hcard : t.card = d) (hscripts : t.scripts = T) :
    Stage s₀ T d f t := ⟨h.ran.then hran, hcard, hscripts⟩

theorem Stage.returns (h : Stage s₀ S c f s) (r : Result) : Ends r s₀ S c f (s, r) := ⟨rfl, h⟩

theorem Stage.setMode (h : Stage s₀ S c f s) (m : ModeName) : Stage s₀ S { c with mode := m.bits } f (s.setMode m) :=
  h.silent (ran_setMode s m) (by rw [setMode_card, h.card]) h.scripts

theorem Stage.updateCard (h : Stage s₀ S c f s) (F : Card → Card) : Stage s₀ S (F c) f (s.setCard (F s.card)) :=
  h.silent (ran_setCard s _) (congrArg F h.card) h.scripts

theorem Stage.setClock (h : Stage s₀ S c f s) (k : ClockClass) :
    Stage s₀ S { c with clockClass := k } f (hostSetClockFrequency k s) :=
  h.silent (hostSetClockFrequency_ran k s) (by rw [hostSetClockFrequency_card, h.card])
    ((hostSetClockFrequency_scripts k s).trans h.scripts)

/-- `try` (R13) after `Well`. -/
theorem Ends.tryThen (h : Ends .well s₀ S c f p) (hk : ∀ t, Stage s₀ S c f t → Ends r s₀ T d g (k t)) :
    Ends r s₀ T d g (tryThen p k) := by
  rw [tryThen_well p k h.result]
  exact hk _ h.stage

/-- `try` (R13) after a failure. -/
theorem Ends.tryThen_fail (h : Ends r s₀ S c f p) (hr : r ≠ .well) : Ends r s₀ S c f (Machine.tryThen p k) := by
  rw [Machine.tryThen_fail p k (h.result ▸ hr)]
  exact h

/-- The end of the request that the sequence runs for. -/
theorem Stage.completes {i : Instr} {v : State} {ok : Bool} {code : Option Result} (h : Stage s.begin S c f t)
    (hs : Ready s) (hexec : exec i s = .next v) (hsteps : Steps v (t.endWith ok code [])) : Completes i s c ok code f :=
  h.card ▸ h.ran.completes hexec (hsteps.trans (run_ended ok code t (h.ran.request.trans hs.request)))

end

/-! ## The controllers -/

section

variable {s₀ s : State} {sc vs : List HostResult} {rs : List ResponseWords} {rd : List (HostResult × List Byte)}
  {acq : List Bool} {c : Card} {f : List (BitVec 48)}

theorem Stage.nextSend {S : Scripts} {x : HostResult} (h : Stage s₀ S c f s) (hx : S.sends = x :: sc) :
    nextSend s = x := nextSend_script s x sc ((congrArg Scripts.sends h.scripts).trans hx)

theorem Stage.nextResponse {S : Scripts} {w : ResponseWords} (h : Stage s₀ S c f s) (hw : S.responses = w :: rs) :
    nextResponse s = w := nextResponse_script s w rs ((congrArg Scripts.responses h.scripts).trans hw)

/-- What a controller of one exchange leaves. -/
theorem Stage.exchanged {S : Scripts} {t : State} {g : List (BitVec 48)} {d : Card} (h : Stage s₀ S c f s) (hran : Ran s t g)
    (hcard : t.card = d) (henv : SameEnv t (afterExchange true s)) : Stage s₀ S.read d (f ++ g) t :=
  h.to hran hcard (by rw [henv.scripts, scripts_afterExchange_true, h.scripts])

theorem Stage.goIdle {w : ResponseWords} (h : Stage s₀ ⟨.well :: sc, w :: rs, vs, rd, acq⟩ c f s) :
    Ends .well s₀ ⟨sc, rs, vs, rd, acq⟩ { c with mode := ModeName.idle.bits, rca := 0#16 } (f ++ [0x400000000095#48])
      (goIdle s) := by
  obtain ⟨hran, hresult, -, hcard, henv⟩ := goIdle_law s
  have hsend : Machine.nextSend s.takeResponse = .well := nextSend_script _ _ sc (congrArg Scripts.sends h.scripts)
  rw [hsend] at hresult hcard
  have hleft : s.takeResponse.scripts = ⟨.well :: sc, rs, vs, rd, acq⟩ := congrArg (fun S : Scripts =>
    { S with responses := S.responses.tail }) h.scripts
  refine ⟨hresult, h.to hran (hcard.trans (by rw [if_pos rfl, h.card])) ?_⟩
  rw [henv.scripts, scripts_afterExchange_false, hleft]
  rfl

/-- CMD16, CMD7 with a response: an exchange whose R1 is in order. -/
theorem Stage.checked {cmd : CmdReg} {w : ResponseWords} (h : Stage s₀ ⟨.well :: sc, w :: rs, vs, rd, acq⟩ c f s)
    (htype : cmd.responseType ≠ .none) (hw : r1Ok w.w0 = true) :
    Ends .well s₀ ⟨sc, rs, vs, rd, acq⟩ c (f ++ [cmd.framed.wire]) (checkedExchange cmd s) := by
  have hr1 : r1Result s = .well :=
    r1Result_script s w sc rs (congrArg Scripts.sends h.scripts) (congrArg Scripts.responses h.scripts) hw
  exact ⟨(checkedExchange_result cmd s htype).trans hr1,
    h.exchanged (checkedExchange_ran cmd s) ((checkedExchange_card cmd s).trans h.card)
      (checkedExchange_sameEnv cmd s (h.nextSend rfl) htype)⟩

theorem Stage.selectCard {w : ResponseWords} (h : Stage s₀ ⟨.well :: sc, w :: rs, vs, rd, acq⟩ c f s) (hrca : c.rca ≠ 0#16)
    (hw : r1Ok w.w0 = true) :
    Ends .well s₀ ⟨sc, rs, vs, rd, acq⟩ c (f ++ [frameOf 7#6 (c.rca ++ 0#16)]) (selectCard true s) := by
  have harg : s.card.rcaArg = c.rca ++ 0#16 := congrArg Card.rcaArg h.card
  have hchecked := h.checked (cmd := newCmd 7#6 s.card.rcaArg .r1) nofun hw
  rw [newCmd_wire, harg] at hchecked
  rwa [selectCard_true s (h.card ▸ hrca), harg]

theorem Stage.sendIfCond {w : ResponseWords} {n : Nat} {last : Result}
    (h : Stage s₀ ⟨.well :: sc, w :: rs, vs, rd, acq⟩ c f s) (hn : 1 ≤ n) (hw : w.w0.extractLsb 7 0 = 0xAA#8) :
    Ends .well s₀ ⟨sc, rs, vs, rd, acq⟩ c (f ++ [0x48000001AA87#48]) (sendIfCond n last s) := by
  have hresult : ifCondResult s = .well := by
    simp only [ifCondResult, h.nextSend rfl, h.nextResponse rfl, hw, if_true]
  obtain ⟨hstate, hend⟩ := sendIfCond_once last hn (.inl hresult)
  refine ⟨hend.trans hresult, ?_⟩
  rw [hstate]
  refine h.exchanged (sendIfCondAttempt_ran s) ((sendIfCondAttempt_card s).trans h.card) ?_
  rw [sendIfCondAttempt_state]
  exact exchange_sameEnv_reads _ s (h.nextSend rfl) nofun

/-- An attempt of CMD8 that the host fails. -/
theorem Stage.ifCondAttempt_failed {e : HostError} (h : Stage s₀ ⟨.error e :: sc, rs, vs, rd, acq⟩ c f s) :
    Ends (errorCode e) s₀ ⟨sc, rs, vs, rd, acq⟩ c (f ++ [0x48000001AA87#48]) (sendIfCondAttempt s) := by
  have hsend : Machine.nextSend s = .error e := h.nextSend rfl
  refine ⟨(sendIfCondAttempt_result s).trans (ifCondResult_error hsend),
    h.to (sendIfCondAttempt_ran s) ((sendIfCondAttempt_card s).trans h.card) ?_⟩
  have henv := exchange_sameEnv (newCmd 8#6 cmd8Arg .r7) s
  rw [decide_eq_false (by simp [hsend])] at henv
  rw [sendIfCondAttempt_state, henv.scripts, scripts_afterExchange_false, h.scripts]
  rfl

/-- CMD8 with every attempt failed by the host. -/
theorem Stage.sendIfCond_failed {e : HostError} {n : Nat} {last : Result}
    (h : Stage s₀ ⟨List.replicate n (.error e) ++ sc, rs, vs, rd, acq⟩ c f s) (hlast : last ≠ .well) :
    (Machine.sendIfCond n last s).2 ≠ .well ∧
      Stage s₀ ⟨sc, rs, vs, rd, acq⟩ c (f ++ List.replicate n 0x48000001AA87#48) (Machine.sendIfCond n last s).1 := by
  induction n generalizing last s f with
  | zero =>
    rw [List.replicate_zero, List.nil_append] at h
    exact ⟨hlast, by rw [List.replicate_zero, List.append_nil]; exact h⟩
  | succ n ih =>
    obtain ⟨hresult, hstage⟩ := h.ifCondAttempt_failed
    rw [sendIfCondAttempt_result] at hresult
    rw [Machine.sendIfCond_failed n last (hresult ▸ errorCode_ne_well e)]
    obtain ⟨hfail, hrest⟩ := ih hstage (hresult ▸ errorCode_ne_well e)
    exact ⟨hfail, by simpa [List.replicate_succ] using hrest⟩

theorem Stage.sendOpCond {w55 w41 : ResponseWords} (a : Word)
    (h : Stage s₀ ⟨.well :: .well :: sc, w55 :: w41 :: rs, vs, rd, acq⟩ c f s) (hok : r1Ok w55.w0 = true)
    (happ : w55.w0.getLsbD 5 = true) (hup : w41.w0.getLsbD 31 = true) :
    Ends .well s₀ ⟨sc, rs, vs, rd, acq⟩ { c with ocr := w41.w0 }
      (f ++ [frameOf 55#6 (c.rca ++ 0#16), frameOf 41#6 (acmd41Sent a)]) (sendOpCond a s) := by
  have hprefix : appPrefixResult s = .well :=
    appPrefixResult_script s w55 _ _ (congrArg Scripts.sends h.scripts) (congrArg Scripts.responses h.scripts) hok happ
  have hleft : (afterExchange true s).scripts = ⟨.well :: sc, w41 :: rs, vs, rd, acq⟩ := by
    rw [scripts_afterExchange_true, h.scripts]; rfl
  have hword := nextResponse_script _ w41 rs (congrArg Scripts.responses hleft)
  obtain ⟨-, hsent⟩ := sendOpCond_law a s
  obtain ⟨hran, -, -, hwell⟩ := hsent hprefix
  obtain ⟨henv, -, hstored⟩ := hwell (nextSend_script _ _ sc (congrArg Scripts.sends hleft))
  rw [hword] at hstored
  obtain ⟨hresult, hcard⟩ := hstored hup
  rw [h.card] at hran hcard
  exact ⟨hresult, h.to hran hcard (by rw [henv.scripts, scripts_afterExchange_true, hleft]; rfl)⟩

theorem Stage.allSendCid {w : ResponseWords} (h : Stage s₀ ⟨.well :: sc, w :: rs, vs, rd, acq⟩ c f s) :
    Ends .well s₀ ⟨sc, rs, vs, rd, acq⟩ { c with cid := registerOfWords w, cidValid := true } (f ++ [0x42000000004D#48])
      (allSendCid s) := by
  have hsend : Machine.nextSend s = .well := h.nextSend rfl
  obtain ⟨hran, hresult, -, hwell, -⟩ := readCid_law 2#6 0#32 s
  obtain ⟨hcard, henv⟩ := hwell hsend
  rw [h.card, h.nextResponse rfl] at hcard
  rw [frame_cmd2] at hran
  exact ⟨hresult.trans (by rw [hsend]; rfl), h.exchanged hran hcard henv⟩

theorem Stage.issueRca {w : ResponseWords} (h : Stage s₀ ⟨.well :: sc, w :: rs, vs, rd, acq⟩ c f s)
    (hok : w.w0.extractLsb 15 13 = 0#3) :
    Ends .well s₀ ⟨sc, rs, vs, rd, acq⟩ { c with rca := w.w0.extractLsb 31 16 } (f ++ [0x430000000021#48]) (issueRca s) := by
  obtain ⟨hran, -, -, hwell⟩ := issueRca_law s
  obtain ⟨henv, hstored, -⟩ := hwell (h.nextSend rfl)
  rw [h.card, h.nextResponse rfl] at hstored
  obtain ⟨hresult, hcard⟩ := hstored hok
  exact ⟨hresult, h.exchanged hran hcard henv⟩

theorem Stage.getCsd {w : ResponseWords} {fields : CsdFields} (h : Stage s₀ ⟨.well :: sc, w :: rs, vs, rd, acq⟩ c f s)
    (hfields : csdFields (registerOfWords w) = some fields) :
    Ends .well s₀ ⟨sc, rs, vs, rd, acq⟩
      ({ c with csd := registerOfWords w, csdValid := true }.withGeometry fields.geometry)
      (f ++ [frameOf 9#6 (c.rca ++ 0#16)]) (getCsd s) := by
  obtain ⟨hran, -, -, hwell⟩ := getCsd_law s
  obtain ⟨henv, -, hlayout⟩ := hwell (h.nextSend rfl)
  rw [h.card, h.nextResponse rfl] at hlayout
  rw [h.card] at hran
  obtain ⟨hresult, hcard⟩ := hlayout fields hfields
  exact ⟨hresult, h.exchanged hran hcard henv⟩

/-! ## The 1.8 V switch (R194) -/

/-- SwitchVoltage up to `host.switch_voltage`, whose answer is its result. -/
theorem Stage.voltage {w : ResponseWords} {x : HostResult} (h : Stage s₀ ⟨.well :: sc, w :: rs, x :: vs, rd, acq⟩ c f s)
    (hallowed : voltageSwitchAllowed s = true) (hok : r1Ok w.w0 = true) :
    Ends (hostCode x) s₀ ⟨sc, rs, vs, rd, acq⟩ { c with voltage := if x = .well then 1#1 else c.voltage }
      (f ++ [0x4B0000000077#48]) (switchVoltage s) := by
  have hchecked := h.checked (cmd := newCmd 11#6 0#32 .r1) nofun hok
  rw [newCmd_wire, frame_cmd11] at hchecked
  have hswitch : switchVoltage s = tryThen (checkedExchange (newCmd 11#6 0#32 .r1) s) fun v =>
      tryThen (hostSwitchVoltage v) fun v => (v.setCard { v.card with voltage := 1#1 }, .well) :=
    (if_neg (ne_false_of_eq_true hallowed)).trans (tryThen_checkedExchange _ s _)
  rw [hswitch]
  refine hchecked.tryThen fun t ht => ?_
  have hanswer : (hostSwitchVoltage t).2 = hostCode x := by
    show hostCode (t.env.voltages.headD _) = _
    rw [show t.env.voltages = x :: vs from congrArg Scripts.voltages ht.scripts]
    rfl
  have hstage : Stage s₀ ⟨sc, rs, vs, rd, acq⟩ c (f ++ [0x4B0000000077#48]) (hostSwitchVoltage t).1 :=
    ht.silent (hostSwitchVoltage_ran t) ((hostSwitchVoltage_card t).trans ht.card)
      (congrArg (fun S : Scripts => { S with voltages := S.voltages.tail }) ht.scripts)
  have hcall : Ends (hostCode x) s₀ ⟨sc, rs, vs, rd, acq⟩ c (f ++ [0x4B0000000077#48]) (hostSwitchVoltage t) :=
    ⟨hanswer, hstage⟩
  cases x with
  | well => exact hcall.tryThen fun u hu => (hu.updateCard fun c => { c with voltage := 1#1 }).returns .well
  | error e => exact hcall.tryThen_fail (errorCode_ne_well e)

/-! ## The payload controllers (R189, R199) -/

theorem Stage.getScr {w55 w51 : ResponseWords} {bytes : List Byte}
    (h : Stage s₀ ⟨.well :: .well :: sc, w55 :: w51 :: rs, vs, (.well, bytes) :: rd, true :: acq⟩ c f s)
    (hlength : bytes.length = 8) (hok : r1Ok w55.w0 = true) (happ : w55.w0.getLsbD 5 = true) (hok51 : r1Ok w51.w0 = true) :
    Ends .well s₀ ⟨sc, rs, vs, rd, acq⟩ (c.withScr bytes) (f ++ [frameOf 55#6 (c.rca ++ 0#16), 0x7300000000C7#48])
      (getScr s) := by
  have hacquired : s.acquireAnswer = true := congrArg (List.headD · _) (congrArg Scripts.acquisitions h.scripts)
  have hdrawn : s.takeAcquisition.scripts = ⟨.well :: .well :: sc, w55 :: w51 :: rs, vs, (.well, bytes) :: rd, acq⟩ :=
    congrArg (fun S : Scripts => { S with acquisitions := S.acquisitions.tail }) h.scripts
  have hprefixed : (afterExchange true s.takeAcquisition).scripts = ⟨.well :: sc, w51 :: rs, vs, (.well, bytes) :: rd, acq⟩ := by
    rw [scripts_afterExchange_true, hdrawn]; rfl
  have hsent : (afterExchange true (afterExchange true s.takeAcquisition)).scripts =
      ⟨sc, rs, vs, (.well, bytes) :: rd, acq⟩ := by
    rw [scripts_afterExchange_true, hprefixed]; rfl
  obtain ⟨-, hall⟩ := getScr_cases s hacquired
  obtain ⟨hran, -, hdata⟩ := hall (appPrefixResult_script _ w55 _ _ (congrArg Scripts.sends hdrawn)
    (congrArg Scripts.responses hdrawn) hok happ)
  obtain ⟨-, hwell⟩ := hdata (r1Result_script _ w51 _ _ (congrArg Scripts.sends hprefixed)
    (congrArg Scripts.responses hprefixed) hok51)
  have hdatas := congrArg Scripts.recvDatas hsent
  obtain ⟨hcard, hresult, henv⟩ := hwell (recvDataAnswer_script _ _ _ _ hdatas)
  have hbytes := recvDataBytes_script _ _ bytes rd hdatas
  rw [hlength] at hbytes
  rw [hbytes, h.card] at hcard
  rw [h.card] at hran
  exact ⟨hresult, h.to hran hcard (henv.scripts.trans
    (congrArg (fun S : Scripts => { S with recvDatas := S.recvDatas.tail }) hsent))⟩

/-- One phase of a negotiation: CMD16(64), then CMD6 with its payload. -/
theorem Stage.negotiatePhase {w v : ResponseWords} {p : List Byte} {g k : Nat} (m : SwitchMode)
    (h : Stage s₀ ⟨.well :: .well :: sc, w :: v :: rs, vs, (.well, p) :: rd, true :: acq⟩ c f s)
    (hgk : 1 ≤ g ∧ g ≤ 6 ∧ k ≤ 15) (hlength : p.length = 64) (hw : r1Ok w.w0 = true) (hv : r1Ok v.w0 = true) :
    Ends .well s₀ ⟨sc, rs, vs, rd, acq⟩ (c.withSwitchStatus p) (f ++ [0x5000000040F1#48, frameOf 6#6 (cmd6Arg m g k)])
      (negotiatePhase m g k s) := by
  have hset : (afterExchange true s).scripts = ⟨.well :: sc, v :: rs, vs, (.well, p) :: rd, true :: acq⟩ := by
    rw [scripts_afterExchange_true, h.scripts]; rfl
  have hdrawn : (afterExchange true s).takeAcquisition.scripts = ⟨.well :: sc, v :: rs, vs, (.well, p) :: rd, acq⟩ :=
    congrArg (fun S : Scripts => { S with acquisitions := S.acquisitions.tail }) hset
  have hsent : (afterExchange true (afterExchange true s).takeAcquisition).scripts = ⟨sc, rs, vs, (.well, p) :: rd, acq⟩ := by
    rw [scripts_afterExchange_true, hdrawn]; rfl
  have hdatas := congrArg Scripts.recvDatas hsent
  have hphase : SwitchPhase s p ((afterExchange true (afterExchange true s).takeAcquisition).takeRecvData 64) :=
    ⟨r1Result_script s w _ _ (congrArg Scripts.sends h.scripts) (congrArg Scripts.responses h.scripts) hw,
      congrArg (List.headD · _) (congrArg Scripts.acquisitions hset),
      r1Result_script _ v _ _ (congrArg Scripts.sends hdrawn) (congrArg Scripts.responses hdrawn) hv,
      recvDataAnswer_script _ _ _ _ hdatas, by rw [← hlength, recvDataBytes_script _ _ p rd hdatas], rfl⟩
  obtain ⟨hwell, hresult, hcard, hran, henv⟩ := switchPhase_run s _ p g k hgk hphase m s (.refl s)
  rw [h.card] at hcard
  rw [Machine.negotiatePhase, tryThen_well _ _ hwell]
  exact ⟨hresult, h.to hran hcard (henv.scripts.trans
    (congrArg (fun S : Scripts => { S with recvDatas := S.recvDatas.tail }) hsent))⟩

end

end Sys2Proof.Machine

/-! `detect` (45_lifecycle.md R291 to R293) in a scripted environment: to CMD0, through CMD8, through the ACMD41 loop, through the
1.8 V switch, and to the identified card. -/

namespace Sys2Proof.Machine

/-- The steps from `v` end the operation above `K` with this Boolean and code; the rest is what `Stage` says of the state there. -/
def EndsWith (v : State) (K : List Frame) (ok : Bool) (code : Option Result) (s₀ : State) (S : Scripts) (c : Card)
    (frames : List (BitVec 48)) : Prop :=
  ∃ t, Stage s₀ S c frames t ∧ Steps v (t.endWith ok code K)

section

variable {s s₀ u v : State} {K : List Frame} {ok : Bool} {code : Option Result} {S : Scripts} {c : Card}
  {f : List (BitVec 48)} {p : State × Result} {r : Result}

theorem EndsWith.after (hsteps : Steps u v) (h : EndsWith v K ok code s₀ S c f) : EndsWith u K ok code s₀ S c f := by
  obtain ⟨t, hstage, hend⟩ := h
  exact ⟨t, hstage, hsteps.trans hend⟩

theorem EndsWith.completes {i : Instr} (h : EndsWith v [] ok code s.begin S c f) (hs : Ready s) (hexec : exec i s = .next v) :
    Completes i s c ok code f := by
  obtain ⟨t, hstage, hend⟩ := h
  exact hstage.completes hs hexec hend

theorem Ends.identifyReturn_well (h : Ends .well s₀ S c f p) (K : List Frame) :
    EndsWith (identifyReturn p K) K true (some .well) s₀ S c f := by
  rw [identifyReturn, if_pos h.result]
  exact ⟨_, h.stage, .here _⟩

theorem Ends.identifyReturn_failed (h : Ends r s₀ S c f p) (hr : r ≠ .well) (K : List Frame) :
    EndsWith (identifyReturn p K) K false (some r) s₀ S c f := by
  rw [identifyReturn, h.result, if_neg hr]
  exact ⟨_, h.stage, .here _⟩

theorem Ran.acmd41Arg {s t : State} (h : Ran s t f) (v2 : Bool) : acmd41Arg t v2 = acmd41Arg s v2 := by
  rw [Machine.acmd41Arg, Machine.acmd41Arg, h.params, h.host]

theorem acmd41Arg_true (s : State) : acmd41Arg s true = (s.params.ocrVoltageWindow &&& 0x00FFFFFF#32) ||| 0x40000000#32 |||
    (if s.host.supports1V8 then 0x01000000#32 else 0#32) := by
  rw [acmd41Arg, if_pos rfl, Bool.true_and]

theorem acmd41Arg_false (s : State) : acmd41Arg s false = s.params.ocrVoltageWindow &&& 0x00FFFFFF#32 := by
  rw [acmd41Arg, Bool.false_and, if_neg Bool.false_ne_true, if_neg Bool.false_ne_true, BitVec.or_zero, BitVec.or_zero]

theorem frame_prefix_rca0 {c : Card} (h : c.rca = 0#16) : frameOf 55#6 (c.rca ++ 0#16) = 0x770000000065#48 := by
  rw [h]
  exact frame_cmd55_rca0

end

/-- What the ways through `detect` have in common: a card is in the slot and activates, and the ACMD41 exchange, whose responses
are `w55` and `w41`, finds it ready. -/
structure Detectable (s : State) (w55 w41 : ResponseWords) : Prop where
  request : s.request = none
  inserted : ∃ ins, s.env.inserted = true :: ins
  activated : ∃ act, s.env.activated = true :: act
  budget : 1 ≤ s.params.acmd41LoopBudget
  app_ok : r1Ok w55.w0 = true
  app_set : w55.w0.getLsbD 5 = true
  ready : w41.w0.getLsbD 31 = true

/-! ## The calls in order -/

/-- After CMD0. -/
def afterIdle (s : State) : State × Result := goIdle (afterActivation s)

/-- After CMD8 and its repetitions. -/
def afterIfCond (s : State) : State × Result := sendIfCond s.params.cmd8MaxAttempts .checkErr (afterIdle s).1

/-- The card when CMD0 has succeeded. -/
def Card.idled (c : Card) : Card :=
  { c with busWidth := .one, clockClass := .f400K, mode := ModeName.idle.bits, rca := 0#16 }

/-- R291 step 8: CMD2 and CMD3. -/
def identifyCard (s : State) : State × Result :=
  tryThen (allSendCid s) fun s => tryThen (issueRca (s.setMode .identify)) fun s => (s.setMode .standBy, .well)

theorem identify_eq (s : State) : identify s = tryThen (detectVoltage s) identifyCard := rfl

/-- The card that CMD2 and CMD3 identify. -/
def Card.identified (c : Card) (wcid w3 : ResponseWords) : Card :=
  { c with mode := ModeName.standBy.bits, rca := w3.w0.extractLsb 31 16, cid := registerOfWords wcid, cidValid := true }

section

variable {s s₀ : State} {sc vs : List HostResult} {rs : List ResponseWords} {rd : List (HostResult × List Byte)}
  {acq : List Bool} {c : Card} {f : List (BitVec 48)} {drained w8 w55 w41 w11 wcid w3 : ResponseWords}

theorem afterActivation_scripts (s : State) : (afterActivation s).scripts = s.scripts := by
  rw [afterActivation, hostActivateCard_scripts, beforeActivation, hostSetClockFrequency_scripts, hostSetBusWidth_scripts,
    hostIsCardInserted_scripts]

theorem afterIdle_ends (hscripts : s.scripts = ⟨.well :: sc, drained :: rs, vs, rd, acq⟩) :
    Ends .well s ⟨sc, rs, vs, rd, acq⟩ s.card.idled [0x400000000095#48] (afterIdle s) := by
  have hactivated := (Stage.refl s).silent (afterActivation_ran s) (afterActivation_card s)
    ((afterActivation_scripts s).trans hscripts)
  exact hactivated.goIdle

/-- R291 steps 1 to 5. -/
theorem run_detect_to_loop (K : List Frame) (h : Detectable s w55 w41) (hidle : (afterIdle s).2 = .well) {S : Scripts}
    (hcond : Stage s S c f (afterIfCond s).1) :
    Steps (s.goto (.insertion 0) K)
      ((afterIfCond s).1.goto (.opCondIteration (decide ((afterIfCond s).2 = .well)) 1) K) := by
  have hreq := h.request
  obtain ⟨ins, hins⟩ := h.inserted
  obtain ⟨act, hact⟩ := h.activated
  have hactivated := afterActivation_ran s
  have hran : Ran s (afterIdle s).1 _ := hactivated.trans (goIdle_law (afterActivation s)).1
  have hreqIdle := hran.request.trans hreq
  have hcmd0 : Steps (enterGoIdle (.detectIdle :: K) (afterActivation s))
      ((afterIdle s).1.goto (.ifCondAttempt 1 .checkErr) (.detectIfCond :: K)) := by
    refine (run_goIdle (.detectIdle :: K) _ (hactivated.request.trans hreq)).trans (Steps.answer hreqIdle ?_)
    show Steps (detectStep (afterIdle s).2 K (afterIdle s).1 _) _
    rw [detectStep, if_pos hidle]
    exact .here _
  have hcmd8 := run_sendIfCond (k := 1) .checkErr (.detectIfCond :: K) hreqIdle
    (show 1 + s.params.cmd8MaxAttempts = _ by rw [hran.params, Nat.add_comm])
  exact ((run_detect_activated K hreq hins hact).trans hcmd0).trans
    (hcmd8.trans (Steps.answer (hcond.ran.request.trans hreq) (.here _)))

/-- R293: an iteration of the ACMD41 loop that finds the card ready. -/
theorem Stage.detect_ready {v2 : Bool} (K : List Frame)
    (h : Stage s₀ ⟨.well :: .well :: sc, w55 :: w41 :: rs, vs, rd, acq⟩ c f s) (hcard : Detectable s₀ w55 w41)
    (hrca : c.rca = 0#16) : ∃ t,
    Stage s₀ ⟨sc, rs, vs, rd, acq⟩ { c with ocr := w41.w0, mode := ModeName.ready.bits }
        (f ++ [0x770000000065#48, frameOf 41#6 (acmd41Arg s₀ v2)]) t ∧
      Steps (s.goto (.opCondIteration v2 1) K) (identifyReturn (identify t) K) := by
  obtain ⟨hwell, hstage⟩ := h.sendOpCond (acmd41Arg s v2) hcard.app_ok hcard.app_set hcard.ready
  rw [acmd41Sent_arg, h.ran.acmd41Arg, frame_prefix_rca0 hrca] at hstage
  have hsteps := run_opCondIteration v2 1 K s (h.ran.request.trans hcard.request) (h.ran.params ▸ hcard.budget)
  rw [opCondReturn, hwell, h.ran.acmd41Arg] at hsteps
  exact ⟨_, hstage.setMode .ready, hsteps⟩

/-- R291 up to the 1.8 V switch, CMD8 answered. -/
theorem detect_ready (K : List Frame)
    (hscripts : s.scripts = ⟨.well :: .well :: .well :: .well :: sc, drained :: w8 :: w55 :: w41 :: rs, vs, rd, acq⟩)
    (h : Detectable s w55 w41) (hattempts : 1 ≤ s.params.cmd8MaxAttempts) (h8 : w8.w0.extractLsb 7 0 = 0xAA#8) : ∃ t,
    Stage s ⟨sc, rs, vs, rd, acq⟩ { s.card.idled with ocr := w41.w0, mode := ModeName.ready.bits }
        [0x400000000095#48, 0x48000001AA87#48, 0x770000000065#48, frameOf 41#6 (acmd41Arg s true)] t ∧
      Steps (s.goto (.insertion 0) K) (identifyReturn (identify t) K) := by
  have hidle := afterIdle_ends hscripts
  have hcond : Ends .well s _ _ _ (afterIfCond s) := hidle.stage.sendIfCond (last := .checkErr) hattempts h8
  have hloop := run_detect_to_loop K h hidle.result hcond.stage
  rw [hcond.result] at hloop
  obtain ⟨t, hstage, hsteps⟩ := hcond.stage.detect_ready (v2 := true) K h rfl
  exact ⟨t, hstage, hloop.trans hsteps⟩

/-- And with every attempt of CMD8 failed. -/
theorem detect_ready_without_cmd8 {e : HostError} (K : List Frame)
    (hscripts : s.scripts = ⟨.well :: (List.replicate s.params.cmd8MaxAttempts (.error e) ++ (.well :: .well :: sc)),
      drained :: w55 :: w41 :: rs, vs, rd, acq⟩)
    (h : Detectable s w55 w41) : ∃ t,
    Stage s ⟨sc, rs, vs, rd, acq⟩ { s.card.idled with ocr := w41.w0, mode := ModeName.ready.bits }
        ([0x400000000095#48] ++ List.replicate s.params.cmd8MaxAttempts 0x48000001AA87#48 ++
          [0x770000000065#48, frameOf 41#6 (acmd41Arg s false)]) t ∧
      Steps (s.goto (.insertion 0) K) (identifyReturn (identify t) K) := by
  have hidle := afterIdle_ends hscripts
  obtain ⟨hfail, hcond⟩ : (afterIfCond s).2 ≠ .well ∧ Stage s _ _ _ (afterIfCond s).1 :=
    hidle.stage.sendIfCond_failed (last := .checkErr) nofun
  have hloop := run_detect_to_loop K h hidle.result hcond
  rw [decide_eq_false hfail] at hloop
  obtain ⟨t, hstage, hsteps⟩ := hcond.detect_ready (v2 := false) K h rfl
  exact ⟨t, hstage, hloop.trans hsteps⟩

/-! ## From the ready card to the identified one -/

theorem detectVoltage_skipped (h : s.host.supports1V8 = false ∨ s.card.ocr.getLsbD 24 = false) :
    detectVoltage s = (s, .well) := if_neg (ne_true_of_eq_false (Bool.and_eq_false_iff.2 h))

theorem detectVoltage_allowed (h : voltageSwitchAllowed s = true) : detectVoltage s = switchVoltage s := by
  obtain ⟨hhost, hocr, -⟩ := (voltageSwitchAllowed_iff s).1 h
  exact if_pos (Bool.and_eq_true_iff.2 ⟨hhost, hocr⟩)

theorem Stage.identifyCard (h : Stage s₀ ⟨.well :: .well :: sc, wcid :: w3 :: rs, vs, rd, acq⟩ c f s)
    (hrca : w3.w0.extractLsb 15 13 = 0#3) :
    Ends .well s₀ ⟨sc, rs, vs, rd, acq⟩ (c.identified wcid w3) (f ++ [0x42000000004D#48] ++ [0x430000000021#48])
      (identifyCard s) :=
  h.allSendCid.tryThen fun _ ht => ((ht.setMode .identify).issueRca hrca).tryThen fun _ hu =>
    (hu.setMode .standBy).returns .well

/-- R291 step 8, without the 1.8 V switch. -/
theorem Stage.identify_unswitched (h : Stage s₀ ⟨.well :: .well :: sc, wcid :: w3 :: rs, vs, rd, acq⟩ c f s)
    (hnone : s₀.host.supports1V8 = false ∨ c.ocr.getLsbD 24 = false) (hrca : w3.w0.extractLsb 15 13 = 0#3) :
    Ends .well s₀ ⟨sc, rs, vs, rd, acq⟩ (c.identified wcid w3) (f ++ [0x42000000004D#48] ++ [0x430000000021#48])
      (identify s) := by
  rw [← h.ran.host, ← h.card] at hnone
  rw [identify_eq, detectVoltage_skipped hnone]
  exact h.identifyCard hrca

/-- R291 step 7: the 1.8 V switch of a card that has S18A. -/
theorem Stage.detectVoltage {x : HostResult} (h : Stage s₀ ⟨.well :: sc, w11 :: rs, x :: vs, rd, acq⟩ c f s)
    (hhost : s₀.host.supports1V8 = true) (hocr : c.ocr.getLsbD 24 = true) (hmode : c.mode = ModeName.ready.bits)
    (hok : r1Ok w11.w0 = true) :
    Ends (hostCode x) s₀ ⟨sc, rs, vs, rd, acq⟩ { c with voltage := if x = .well then 1#1 else c.voltage }
      (f ++ [0x4B0000000077#48]) (detectVoltage s) := by
  have hallowed : voltageSwitchAllowed s = true :=
    (voltageSwitchAllowed_iff s).2 ⟨h.ran.host ▸ hhost, h.card ▸ hocr, h.card ▸ hmode⟩
  rw [detectVoltage_allowed hallowed]
  exact h.voltage hallowed hok

end

/-! ## The three runs -/

/-- `detect` up to the identified card, CMD8 answered and no 1.8 V switch. -/
theorem detect_identifies {s : State} {sc vs : List HostResult} {rs : List ResponseWords}
    {rd : List (HostResult × List Byte)} {acq : List Bool} {drained w8 w55 w41 wcid w3 : ResponseWords}
    (K : List Frame) (hscripts : s.scripts = ⟨List.replicate 6 .well ++ sc,
      drained :: w8 :: w55 :: w41 :: wcid :: w3 :: rs, vs, rd, acq⟩)
    (h : Detectable s w55 w41) (hattempts : 1 ≤ s.params.cmd8MaxAttempts) (h8 : w8.w0.extractLsb 7 0 = 0xAA#8)
    (hnone : s.host.supports1V8 = false ∨ w41.w0.getLsbD 24 = false) (hrca : w3.w0.extractLsb 15 13 = 0#3) :
    EndsWith (s.goto (.insertion 0) K) K true (some .well) s ⟨sc, rs, vs, rd, acq⟩
      ({ s.card.idled with ocr := w41.w0 }.identified wcid w3)
      [0x400000000095#48, 0x48000001AA87#48, 0x770000000065#48, frameOf 41#6 (acmd41Arg s true), 0x42000000004D#48,
        0x430000000021#48] := by
  obtain ⟨t, hstage, hsteps⟩ := detect_ready K hscripts h hattempts h8
  exact ((hstage.identify_unswitched hnone hrca).identifyReturn_well K).after hsteps

/-- Settles O41: `detect_identifies` on the state at the request. -/
theorem detectIdentifiesACard : Obligations.DetectIdentifiesACard := by
  unfold Obligations.DetectIdentifiesACard
  intro s drained w8 w55 w41 wcid w3 ins act sc rs hs hattempts hbudget hins hact hsends hresponses h8 hok happ hup hnone hrca
  have hcard : Detectable s.begin w55 w41 := ⟨hs.request, ⟨ins, hins⟩, ⟨act, hact⟩, hbudget, hok, happ, hup⟩
  have hscripts := scripts_begin hsends hresponses rfl rfl rfl
  have hdetect := detect_identifies [] hscripts hcard hattempts h8 hnone hrca
  rw [acmd41Arg_true] at hdetect
  exact hdetect.completes hs hs.exec_detect

/-- Settles O44: `detect_ready_without_cmd8`, then the identification without the 1.8 V switch. -/
theorem detectWithoutCmd8ClearsHcs : Obligations.DetectWithoutCmd8ClearsHcs := by
  unfold Obligations.DetectWithoutCmd8ClearsHcs
  intro s e drained w55 w41 wcid w3 ins act sc rs hs hbudget hins hact hsends hresponses hok happ hup hnone hrca
  have hcard : Detectable s.begin w55 w41 := ⟨hs.request, ⟨ins, hins⟩, ⟨act, hact⟩, hbudget, hok, happ, hup⟩
  have hscripts := scripts_begin hsends hresponses rfl rfl rfl
  obtain ⟨t, hstage, hsteps⟩ := detect_ready_without_cmd8 [] hscripts hcard
  have hdetect := ((hstage.identify_unswitched hnone hrca).identifyReturn_well []).after hsteps
  rw [acmd41Arg_false] at hdetect
  simp only [List.append_assoc, List.cons_append, List.nil_append] at hdetect
  exact hdetect.completes hs hs.exec_detect

/-- Settles O42: `detect_ready`, then the 1.8 V switch (`Stage.detectVoltage`), which fails or leads on to the identification. -/
theorem detectSwitchesTheVoltage : Obligations.DetectSwitchesTheVoltage := by
  unfold Obligations.DetectSwitchesTheVoltage
  intro s drained w8 w55 w41 w11 ins act sc rs vs hs hattempts hbudget hhost hins hact hresponses h8 hok happ hup hocr h11
  have hcard : Detectable s.begin w55 w41 := ⟨hs.request, ⟨ins, hins⟩, ⟨act, hact⟩, hbudget, hok, happ, hup⟩
  have harg : acmd41Arg s.begin true = _ := acmd41Arg_true s.begin
  rw [if_pos (show s.begin.host.supports1V8 = true from hhost)] at harg
  refine ⟨fun e hsends hvoltages => ?_, fun wcid w3 rt hsends hvoltages hrs hrca => ?_⟩
  · have hscripts := scripts_begin hsends hresponses hvoltages rfl rfl
    obtain ⟨t, hstage, hsteps⟩ := detect_ready [] hscripts hcard hattempts h8
    have hvoltage := (hstage.detectVoltage hhost hocr rfl h11).tryThen_fail (k := identifyCard) (errorCode_ne_well e)
    have hdetect := (hvoltage.identifyReturn_failed (errorCode_ne_well e) []).after hsteps
    rw [harg] at hdetect
    exact hdetect.completes hs hs.exec_detect
  · subst hrs
    have hscripts := scripts_begin hsends hresponses hvoltages rfl rfl
    obtain ⟨t, hstage, hsteps⟩ := detect_ready [] hscripts hcard hattempts h8
    have hvoltage := (hstage.detectVoltage hhost hocr rfl h11).tryThen (k := identifyCard) fun _ hu => hu.identifyCard hrca
    have hdetect := (hvoltage.identifyReturn_well []).after hsteps
    rw [harg] at hdetect
    exact hdetect.completes hs hs.exec_detect

end Sys2Proof.Machine

/-! `to_normal` and `initial_device` (45_lifecycle.md R294 to R299) in a scripted environment: the registers, the negotiations, the
last CMD16. -/

namespace Sys2Proof.Machine

/-! ## The responses of checked exchanges -/

/-- `n` responses whose R1 is in order. -/
structure R1Words (n : Nat) (ws : List ResponseWords) : Prop where
  length : ws.length = n
  ok : ∀ w ∈ ws, r1Ok w.w0 = true

theorem R1Words.drop {n k : Nat} {ws : List ResponseWords} (h : R1Words (n + k) ws) : R1Words n (ws.drop k) :=
  ⟨by rw [List.length_drop, h.length, Nat.add_sub_cancel], fun w hw => h.ok w (List.mem_of_mem_drop hw)⟩

theorem R1Words.cons {n : Nat} {ws : List ResponseWords} (h : R1Words (n + 1) ws) :
    ∃ w, ws = w :: ws.drop 1 ∧ r1Ok w.w0 = true := by
  cases ws with
  | nil => cases h.length
  | cons w ws => exact ⟨w, rfl, h.ok w (List.mem_cons_self ..)⟩

/-! ## `to_normal` as three parts -/

/-- R294: CMD9, CMD7 and the SCR. -/
def readRegisters (s : State) : State × Result :=
  tryThen (getCsd s) fun s => tryThen (selectCard true s) getScr

/-- R294: the three negotiations, and the clock after the first. -/
def negotiateAll (s : State) : State × Result :=
  tryThen (negotiateHighSpeed s) fun s => negotiateDefaults (hostSetClockFrequency .f25M s)

/-- R294, R296: CMD16(512), the fix-up and the mode. -/
def enterTransfer (s : State) : State × Result :=
  tryThen (setBlockLength blockLen s) fun s => ((s.setCard s.card.fixBlockSize).setMode .transfer, .well)

theorem toNormalSequence_eq (s : State) :
    toNormalSequence s = tryThen (readRegisters s) fun s => tryThen (negotiateAll s) enterTransfer := by
  simp only [readRegisters, negotiateAll, tryThen_assoc]
  rfl

/-- The card after its registers are read. -/
def Card.registered (c : Card) (wcsd : ResponseWords) (g : Geometry) (bytes : List Byte) : Card :=
  ({ c with csd := registerOfWords wcsd, csdValid := true }.withGeometry g).withScr bytes

/-- The answers that `readRegisters` succeeds with: the responses of CMD9, CMD7, CMD55 and CMD51, and the payload of the SCR. -/
structure Readable (wcsd wsel w55 w51 : ResponseWords) (fields : CsdFields) (bytes : List Byte) : Prop where
  csd : csdFields (registerOfWords wcsd) = some fields
  selected : r1Ok wsel.w0 = true
  app_ok : r1Ok w55.w0 = true
  app_set : w55.w0.getLsbD 5 = true
  sent : r1Ok w51.w0 = true
  length : bytes.length = 8

/-- The frames of `readRegisters`. -/
def registerFrames (c : Card) : List (BitVec 48) :=
  [frameOf 9#6 (c.rca ++ 0#16), frameOf 7#6 (c.rca ++ 0#16), frameOf 55#6 (c.rca ++ 0#16), 0x7300000000C7#48]

section

variable {s₀ s : State} {sc vs : List HostResult} {ws rs : List ResponseWords}
  {rd rd' : List (HostResult × List Byte)} {acq acq' : List Bool} {c : Card} {f frames : List (BitVec 48)} {g k n : Nat}
  {bytes p q : List Byte}

theorem Stage.readRegisters {wcsd wsel w55 w51 : ResponseWords} {fields : CsdFields}
    (h : Stage s₀ ⟨.well :: .well :: .well :: .well :: sc, wcsd :: wsel :: w55 :: w51 :: rs, vs, (.well, bytes) :: rd,
      true :: acq⟩ c f s)
    (hrca : c.rca ≠ 0#16) (hcard : Readable wcsd wsel w55 w51 fields bytes) :
    Ends .well s₀ ⟨sc, rs, vs, rd, acq⟩ (c.registered wcsd fields.geometry bytes) (f ++ registerFrames c)
      (readRegisters s) := by
  have hsequence := (h.getCsd hcard.csd).tryThen fun _ ht => (ht.selectCard hrca hcard.selected).tryThen fun _ hu =>
    hu.getScr hcard.length hcard.app_ok hcard.app_set hcard.sent
  rw [List.append_assoc, List.append_assoc] at hsequence
  exact hsequence

theorem Stage.enterTransfer (h : Stage s₀ ⟨.well :: sc, ws ++ rs, vs, rd, acq⟩ c f s) (hws : R1Words 1 ws) :
    Ends .well s₀ ⟨sc, ws.drop 1 ++ rs, vs, rd, acq⟩ { c.fixBlockSize with mode := ModeName.transfer.bits }
      (f ++ [0x500000020015#48]) (enterTransfer s) := by
  obtain ⟨w, hw, hok⟩ := hws.cons
  rw [hw] at h
  have hlength := h.checked (cmd := newCmd 16#6 blockLen .r1) nofun hok
  rw [newCmd_wire, frame_cmd16_512] at hlength
  exact hlength.tryThen fun t ht => ((ht.updateCard Card.fixBlockSize).setMode .transfer).returns .well

/-! ## The negotiations -/

/-- The payloads of a negotiation of function `k` of group `g` that succeeds: the Check payload `p`, the Switch payload `q`. -/
structure Negotiates (g k : Nat) (p q : List Byte) : Prop where
  bounds : 1 ≤ g ∧ g ≤ 6 ∧ k ≤ 15
  check_length : p.length = 64
  switch_length : q.length = 64
  accepted : (fnSupportOf p g).getLsbD k = true ∧ (fnCurrentOf p g).toNat = k
  switched : (fnCurrentOf q g).toNat = k

theorem Negotiates.of_current (hgk : 1 ≤ g ∧ g ≤ 6 ∧ k ≤ 15) (hp : p.length = 64) (hq : q.length = 64)
    (hsupport : (fnSupportOf p g).getLsbD k = true) (hcheck : fnCurrentOf p g = BitVec.ofNat 4 k)
    (hswitch : fnCurrentOf q g = BitVec.ofNat 4 k) : Negotiates g k p q := by
  have hcode : (BitVec.ofNat 4 k).toNat = k := (BitVec.toNat_ofNat k 4).trans (Nat.mod_eq_of_lt (by omega))
  exact ⟨hgk, hp, hq, ⟨hsupport, hcheck ▸ hcode⟩, hswitch ▸ hcode⟩

/-- `Stage.negotiatePhase` with its responses from a list. -/
theorem Stage.negotiatePhase_words (m : SwitchMode)
    (h : Stage s₀ ⟨.well :: .well :: sc, ws ++ rs, vs, (.well, p) :: rd, true :: acq⟩ c f s) (hws : R1Words (n + 2) ws)
    (hgk : 1 ≤ g ∧ g ≤ 6 ∧ k ≤ 15) (hlength : p.length = 64) :
    Ends .well s₀ ⟨sc, ws.drop 2 ++ rs, vs, rd, acq⟩ (c.withSwitchStatus p)
      (f ++ [0x5000000040F1#48, frameOf 6#6 (cmd6Arg m g k)]) (Machine.negotiatePhase m g k s) := by
  obtain ⟨w, hw, hok⟩ := hws.cons
  obtain ⟨v, hv, hokv⟩ := (R1Words.drop (k := 1) hws).cons
  rw [hw, hv, List.drop_drop] at h
  exact Stage.negotiatePhase m h hgk hlength hok hokv

theorem Stage.negotiate_accepted
    (h : Stage s₀ ⟨.well :: .well :: .well :: .well :: sc, ws ++ rs, vs, (.well, p) :: (.well, q) :: rd,
      true :: true :: acq⟩ c f s)
    (hws : R1Words (n + 4) ws) (hpq : Negotiates g k p q) :
    Ends .well s₀ ⟨sc, (ws.drop 2).drop 2 ++ rs, vs, rd, acq⟩ (c.withSwitchStatus q)
      (f ++ [0x5000000040F1#48, frameOf 6#6 (cmd6Arg .check g k)] ++ [0x5000000040F1#48, frameOf 6#6 (cmd6Arg .switch g k)])
      (negotiate g k s) := by
  have hg : 1 ≤ g ∧ g ≤ 6 := ⟨hpq.bounds.1, hpq.bounds.2.1⟩
  rw [negotiate_eq]
  refine (h.negotiatePhase_words .check hws hpq.bounds hpq.check_length).tryThen fun t ht => ?_
  rw [ht.card, if_pos ((checkAccepted_withSwitchStatus c p k hg).2 hpq.accepted), negotiateSwitch]
  refine (ht.negotiatePhase_words .switch (n := n) (R1Words.drop hws) hpq.bounds hpq.switch_length).tryThen fun u hu => ?_
  rw [withSwitchStatus_again] at hu
  rw [hu.card, if_pos ((switchAccepted_withSwitchStatus c q k hg).2 hpq.switched)]
  exact hu.returns .well

theorem Stage.negotiate_rejected
    (h : Stage s₀ ⟨.well :: .well :: sc, ws ++ rs, vs, (.well, p) :: rd, true :: acq⟩ c f s) (hws : R1Words (n + 2) ws)
    (hgk : 1 ≤ g ∧ g ≤ 6 ∧ k ≤ 15) (hlength : p.length = 64)
    (hno : ¬ ((fnSupportOf p g).getLsbD k = true ∧ (fnCurrentOf p g).toNat = k)) :
    Ends .notSupported s₀ ⟨sc, ws.drop 2 ++ rs, vs, rd, acq⟩ (c.withSwitchStatus p)
      (f ++ [0x5000000040F1#48, frameOf 6#6 (cmd6Arg .check g k)]) (negotiate g k s) := by
  rw [negotiate_eq]
  refine (h.negotiatePhase_words .check hws hgk hlength).tryThen fun t ht => ?_
  rw [ht.card, if_neg (mt (checkAccepted_withSwitchStatus c p k ⟨hgk.1, hgk.2.1⟩).1 hno)]
  exact ht.returns .notSupported

/-- R298: in `to_normal` either end of a negotiation leads on. -/
theorem Ends.tolerated {r : Result} {S : Scripts} (h : Ends r s₀ S c f (negotiate g k s)) (hr : r = .well ∨ r = .notSupported) :
    Ends .well s₀ S c f (negotiateTolerated g k s) := by
  rw [negotiateTolerated, h.result, if_pos (tolerated_of_or hr)]
  exact h.stage.returns .well

theorem cmd6Allowed_true {c : Card} (h : 1 ≤ c.version.toNat) : cmd6Allowed c = true := decide_eq_true h

/-- The negotiations of a card without CMD6. -/
theorem Stage.negotiateAll_skipped {S : Scripts} (h : Stage s₀ S c f s) (hversion : c.version = 0#2) :
    Ends .well s₀ S { c with clockClass := .f25M } f (negotiateAll s) := by
  have hskip : ∀ t : State, t.card.version = 0#2 → ¬ cmd6Allowed t.card = true := by
    intro t ht
    rw [cmd6Allowed, ht]
    decide
  have hclock := h.setClock .f25M
  rw [negotiateAll, negotiateHighSpeed, if_neg (hskip s (h.card ▸ hversion)), tryThen_pure, negotiateDefaults,
    if_neg (hskip _ (hclock.card ▸ hversion))]
  exact hclock.returns .well

/-- The frames of the negotiations of the driver strength and the power limit. -/
def defaultsFrames : List (BitVec 48) :=
  [0x5000000040F1#48, 0x4600FFF0FF31#48, 0x5000000040F1#48, 0x4680FFF0FF07#48,
    0x5000000040F1#48, 0x4600FF0FFF09#48, 0x5000000040F1#48, 0x4680FF0FFF3F#48]

/-- The driver strength and the power limit. -/
theorem Stage.negotiateDefaults {p₃ q₃ p₄ q₄ : List Byte}
    (h : Stage s₀ ⟨List.replicate 8 .well ++ sc, ws ++ rs, vs,
      (.well, p₃) :: (.well, q₃) :: (.well, p₄) :: (.well, q₄) :: rd, List.replicate 4 true ++ acq⟩ c f s)
    (hws : R1Words (n + 8) ws) (hversion : 1 ≤ c.version.toNat) (h₃ : Negotiates 3 0 p₃ q₃) (h₄ : Negotiates 4 0 p₄ q₄) :
    Ends .well s₀ ⟨sc, ws.drop 8 ++ rs, vs, rd, acq⟩ (c.withSwitchStatus q₄)
      (f ++ defaultsFrames) (negotiateDefaults s) := by
  rw [Machine.negotiateDefaults, if_pos (cmd6Allowed_true (h.card ▸ hversion))]
  have hdrive := (h.negotiate_accepted (n := n + 4) hws h₃).tolerated (.inl rfl)
  rw [List.drop_drop, frame_check_3_0, frame_switch_3_0] at hdrive
  refine hdrive.tryThen fun t ht => ?_
  have hpower := (ht.negotiate_accepted (n := n) (R1Words.drop hws) h₄).tolerated (.inl rfl)
  rw [List.drop_drop, List.drop_drop, withSwitchStatus_again, frame_check_4_0, frame_switch_4_0] at hpower
  simp only [List.append_assoc] at hpower
  exact hpower

theorem negotiateHighSpeed_allowed (h : 1 ≤ s.card.version.toNat) : negotiateHighSpeed s = negotiateTolerated 1 1 s :=
  if_pos (cmd6Allowed_true h)

/-- After the high speed, negotiated or not: the clock, the driver strength and the power limit. -/
theorem Ends.negotiateAll {p₃ q₃ p₄ q₄ : List Byte}
    (h : Ends .well s₀ ⟨List.replicate 8 .well ++ sc, ws ++ rs, vs,
      (.well, p₃) :: (.well, q₃) :: (.well, p₄) :: (.well, q₄) :: rd, List.replicate 4 true ++ acq⟩ (c.withSwitchStatus p) f
      (negotiateHighSpeed s))
    (hws : R1Words (n + 8) ws) (hversion : 1 ≤ c.version.toNat) (h₃ : Negotiates 3 0 p₃ q₃) (h₄ : Negotiates 4 0 p₄ q₄) :
    Ends .well s₀ ⟨sc, ws.drop 8 ++ rs, vs, rd, acq⟩ ({ c with clockClass := .f25M }.withSwitchStatus q₄)
      (f ++ defaultsFrames) (negotiateAll s) :=
  h.tryThen fun _ ht => (ht.setClock .f25M).negotiateDefaults hws hversion h₃ h₄

/-! ## The whole of `to_normal` -/

theorem Ends.toNormal {S : Scripts} {K : List Frame} (h : Ends .well s₀ S c f (toNormalSequence s)) (hreq : s.request = none)
    (hrca : s.card.rca ≠ 0#16) (hmode : s.card.mode ≠ ModeName.inactive.bits) :
    EndsWith (enterToNormal K s) K true (some .well) s₀ S c f := by
  have hsteps := run_toNormal K s hreq (not_or.2 ⟨hrca, mt of_decide_eq_true hmode⟩)
  rw [toNormalReturn, if_pos h.result] at hsteps
  exact ⟨_, h.stage, hsteps⟩

/-- `to_normal` on a card whose registers are in order and whose negotiations lead on. -/
theorem Stage.toNormal {wcsd wsel w55 w51 : ResponseWords} {fields : CsdFields} {d : Card} {sc' : List HostResult}
    {ws' : List ResponseWords} (K : List Frame)
    (h : Stage s₀ ⟨.well :: .well :: .well :: .well :: sc, wcsd :: wsel :: w55 :: w51 :: (ws ++ rs), vs, (.well, bytes) :: rd,
      true :: acq⟩ c f s)
    (hreq : s₀.request = none) (hrca : c.rca ≠ 0#16) (hmode : c.mode ≠ ModeName.inactive.bits)
    (hcard : Readable wcsd wsel w55 w51 fields bytes) (hws : R1Words 1 ws')
    (hnegotiate : ∀ t, Stage s₀ ⟨sc, ws ++ rs, vs, rd, acq⟩ (c.registered wcsd fields.geometry bytes)
      (f ++ registerFrames c) t →
      Ends .well s₀ ⟨.well :: sc', ws' ++ rs, vs, rd', acq'⟩ d frames (negotiateAll t)) :
    EndsWith (enterToNormal K s) K true (some .well) s₀ ⟨sc', ws'.drop 1 ++ rs, vs, rd', acq'⟩
      { d.fixBlockSize with mode := ModeName.transfer.bits } (frames ++ [0x500000020015#48]) := by
  refine Ends.toNormal ?_ (h.ran.request.trans hreq) (h.card ▸ hrca) (h.card ▸ hmode)
  rw [toNormalSequence_eq]
  exact (h.readRegisters hrca hcard).tryThen fun t ht => (hnegotiate t ht).tryThen fun u hu => hu.enterTransfer hws

/-- `to_normal` on a version-1.0 card. -/
theorem Stage.toNormal_without_cmd6 {wcsd wsel w55 w51 w16 : ResponseWords} {fields : CsdFields} (K : List Frame)
    (h : Stage s₀ ⟨List.replicate 5 .well ++ sc, wcsd :: wsel :: w55 :: w51 :: w16 :: rs, vs, (.well, bytes) :: rd,
      true :: acq⟩ c f s)
    (hreq : s₀.request = none) (hrca : c.rca ≠ 0#16) (hmode : c.mode ≠ ModeName.inactive.bits)
    (hcard : Readable wcsd wsel w55 w51 fields bytes) (hversion : versionOf (assembleScr bytes) = 0#2)
    (hok16 : r1Ok w16.w0 = true) :
    EndsWith (enterToNormal K s) K true (some .well) s₀ ⟨sc, rs, vs, rd, acq⟩
      { ({ c.registered wcsd fields.geometry bytes with clockClass := .f25M } : Card).fixBlockSize with
        mode := ModeName.transfer.bits }
      (f ++ registerFrames c ++ [0x500000020015#48]) :=
  have hws : R1Words 1 [w16] := ⟨rfl, fun _ hw => List.mem_singleton.1 hw ▸ hok16⟩
  h.toNormal (ws := [w16]) K hreq hrca hmode hcard hws fun _ ht => ht.negotiateAll_skipped hversion

end

/-- Settles O46: `Stage.toNormal_without_cmd6` from the request on. -/
theorem toNormalBringsAVersionOneCardToTransfer : Obligations.ToNormalBringsAVersionOneCardToTransfer := by
  unfold Obligations.ToNormalBringsAVersionOneCardToTransfer
  intro s wcsd wsel w55 w51 w16 fields bytes acq sc rs rd hs hrca hmode hacq hsends hresponses hdatas hlength hfields hsel hok
    happ hok51 hversion hok16
  have hstart := (Stage.refl s.begin).silent (.refl _) rfl (scripts_begin hsends hresponses rfl hdatas hacq)
  have hnormal := hstart.toNormal_without_cmd6 [] hs.request hrca hmode ⟨hfields, hsel, hok, happ, hok51, hlength⟩ hversion
    hok16
  rw [Card.registered, Card.withScr, hversion] at hnormal
  exact hnormal.completes hs hs.exec_toNormal

/-- Settles O47: the three negotiations accepted. -/
theorem toNormalNegotiatesThreeFunctions : Obligations.ToNormalNegotiatesThreeFunctions := by
  unfold Obligations.ToNormalNegotiatesThreeFunctions
  intro s wcsd wsel w55 w51 ws fields bytes p₁ q₁ p₃ q₃ p₄ q₄ acq sc rs rd hs hrca hmode hacq hsends hresponses hlen hws hdatas
    hbytes hp₁ hq₁ hp₃ hq₃ hp₄ hq₄ hfields hsel hok happ hok51 hversion hs₁ hc₁ hw₁ hs₃ hc₃ hw₃ hs₄ hc₄ hw₄
  have hwords : R1Words (9 + 4) ws := ⟨hlen, hws⟩
  have hspeed : Negotiates 1 1 p₁ q₁ := .of_current (by decide) hp₁ hq₁ hs₁ hc₁ hw₁
  have hdrive : Negotiates 3 0 p₃ q₃ := .of_current (by decide) hp₃ hq₃ hs₃ hc₃ hw₃
  have hpower : Negotiates 4 0 p₄ q₄ := .of_current (by decide) hp₄ hq₄ hs₄ hc₄ hw₄
  have hstart := (Stage.refl s.begin).silent (.refl _) rfl (scripts_begin hsends hresponses rfl hdatas hacq)
  have hnormal := hstart.toNormal (s₀ := s.begin) (c := s.begin.card) (sc := List.replicate 13 HostResult.well ++ sc)
    (sc' := sc) (ws' := ws.drop 12) [] hs.request hrca hmode ⟨hfields, hsel, hok, happ, hok51, hbytes⟩
    (R1Words.drop (k := 12) hwords) fun t ht => by
      have hfirst := (ht.negotiate_accepted (n := 9) hwords hspeed).tolerated (.inl rfl)
      rw [← negotiateHighSpeed_allowed (ht.card ▸ hversion), List.drop_drop, frame_check_1_1, frame_switch_1_1] at hfirst
      have hall := hfirst.negotiateAll (n := 1) (R1Words.drop hwords) hversion hdrive hpower
      rwa [List.drop_drop] at hall
  exact hnormal.completes hs hs.exec_toNormal

/-- Settles O48: the high speed rejected, the two other negotiations accepted. -/
theorem toNormalGoesOnWithoutHighSpeed : Obligations.ToNormalGoesOnWithoutHighSpeed := by
  unfold Obligations.ToNormalGoesOnWithoutHighSpeed
  intro s wcsd wsel w55 w51 ws fields bytes p₁ p₃ q₃ p₄ q₄ acq sc rs rd hs hrca hmode hacq hsends hresponses hlen hws hdatas
    hbytes hp₁ hp₃ hq₃ hp₄ hq₄ hfields hsel hok happ hok51 hversion hno hs₃ hc₃ hw₃ hs₄ hc₄ hw₄
  have hwords : R1Words (9 + 2) ws := ⟨hlen, hws⟩
  have hrejected : ¬ ((fnSupportOf p₁ 1).getLsbD 1 = true ∧ (fnCurrentOf p₁ 1).toNat = 1) := by
    rintro ⟨hsupport, hcurrent⟩
    exact hno.elim (fun h => absurd hsupport (ne_true_of_eq_false h)) (fun h => h (BitVec.eq_of_toNat_eq hcurrent))
  have hdrive : Negotiates 3 0 p₃ q₃ := .of_current (by decide) hp₃ hq₃ hs₃ hc₃ hw₃
  have hpower : Negotiates 4 0 p₄ q₄ := .of_current (by decide) hp₄ hq₄ hs₄ hc₄ hw₄
  have hstart := (Stage.refl s.begin).silent (.refl _) rfl (scripts_begin hsends hresponses rfl hdatas hacq)
  have hnormal := hstart.toNormal (s₀ := s.begin) (c := s.begin.card) (sc := List.replicate 11 HostResult.well ++ sc)
    (sc' := sc) (ws' := ws.drop 10) [] hs.request hrca hmode ⟨hfields, hsel, hok, happ, hok51, hbytes⟩
    (R1Words.drop (k := 10) hwords) fun t ht => by
      have hfirst := (ht.negotiate_rejected (n := 9) hwords (by decide) hp₁ hrejected).tolerated (.inr rfl)
      rw [← negotiateHighSpeed_allowed (ht.card ▸ hversion), frame_check_1_1] at hfirst
      have hall := hfirst.negotiateAll (n := 1) (R1Words.drop hwords) hversion hdrive hpower
      rwa [List.drop_drop] at hall
  exact hnormal.completes hs hs.exec_toNormal

/-! ## `initial_device` (R299) -/

/-- The fix-up does not read the mode. -/
theorem fixBlockSize_mode (c : Card) (m n : BitVec 10) :
    { c.fixBlockSize with mode := n } = { ({ c with mode := m } : Card).fixBlockSize with mode := n } := by
  simp only [Card.fixBlockSize]
  split <;> rfl

theorem Ready.exec_initialDevice {s : State} (hs : Ready s) :
    exec .initialDevice s = .next (s.begin.goto (.insertion 0) [.initialDetect]) := runOperation_ready enterInitialDevice s hs

/-- R299: `to_normal` follows a `detect` that succeeded. -/
theorem run_initial_detected {s : State} (hreq : s.request = none) :
    Steps (s.endWith true (some .well) [.initialDetect]) (enterToNormal [.initialNormal] s) := by
  refine Steps.advance ⟨rfl, hreq⟩ ?_
  show Steps (answer .initialDetect .well [] (s.setControl _)) _
  rw [answer_setControl]
  exact .here _

/-- R299: and its result is that of `initial_device`. -/
theorem run_initial_normal (ok : Bool) (code : Option Result) {s : State} (hreq : s.request = none) :
    Steps (s.endWith ok code [.initialNormal]) (s.endWith ok code []) := Steps.advance ⟨rfl, hreq⟩ (.here _)

/-- Settles O50: `detect_identifies`, then `Stage.toNormal_without_cmd6` from the card it identified. -/
theorem initialDeviceBringsACardToTransfer : Obligations.InitialDeviceBringsACardToTransfer := by
  unfold Obligations.InitialDeviceBringsACardToTransfer
  intro s drained w8 w55 w41 wcid w3 wcsd wsel v55 w51 w16 fields bytes ins act acq sc rs rd hs hattempts hbudget hins hact hacq
    hsends hresponses hdatas hlength h8 hok happ hup hnone hrca hassigned hfields hsel hokv happv hok51 hversion hok16
  have hcard : Detectable s.begin w55 w41 := ⟨hs.request, ⟨ins, hins⟩, ⟨act, hact⟩, hbudget, hok, happ, hup⟩
  have hscripts := scripts_begin hsends hresponses rfl hdatas hacq
  obtain ⟨t, hstage, hdetect⟩ := detect_identifies (sc := List.replicate 5 HostResult.well ++ sc) [.initialDetect] hscripts
    hcard hattempts h8 hnone hrca
  rw [acmd41Arg_true] at hstage
  obtain ⟨u, hend, hnormal⟩ := hstage.toNormal_without_cmd6 [.initialNormal] hs.request hassigned nofun
    ⟨hfields, hsel, hokv, happv, hok51, hlength⟩ hversion hok16
  rw [Card.registered, Card.withScr, hversion] at hend
  have hdetected := hdetect.trans (run_initial_detected (hstage.ran.request.trans hs.request))
  have hreturned := run_initial_normal true (some .well) (hend.ran.request.trans hs.request)
  refine Stage.completes ⟨hend.ran, hend.card.trans (Eq.symm ?_), hend.scripts⟩ hs hs.exec_initialDevice
    (hdetected.trans (hnormal.trans hreturned))
  exact fixBlockSize_mode _ ModeName.standBy.bits _

end Sys2Proof.Machine

/-! What a request reports (60_exceptions.md R306, R321): the lines that write the outcome, that no other line changes it, and
that under an operation none of them reports a sentinel of the core's loops. -/

namespace Sys2Proof.Machine

/-! ## The lines that report to the caller -/

/-- The lines that write the outcome: the position, with those that wait, and the Boolean and code reported. -/
inductive OutcomeWrite : Point → List Frame → Bool → Option Result → Prop where
  | controller (x : Result) : OutcomeWrite (.returned x) [] (decide (x = .well)) (some x)
  | operation (ok : Bool) (code : Option Result) (K : List Frame) : OutcomeWrite (.ended ok code) K ok code
  | freed (p : Point) (K : List Frame) : OutcomeWrite p (.freeDevice :: K) true (some .well)

/-- R321: under an operation no line reports a sentinel. Only a controller returns one, and an operation stands below it. -/
theorem OutcomeWrite.plainCode {b : Routine} {p : Point} {K : List Frame} {ok : Bool} {code : Option Result}
    (h : OutcomeWrite p K ok code) (hb : b.isOperation = true) (hnested : controlNested b (.running p K)) :
    PlainCode code := by
  obtain ⟨-, hreturn, -⟩ := hnested
  cases h with
  | controller x => exact absurd (hb.symm.trans hreturn.1) nofun
  | operation => exact hreturn.2
  | freed => exact ⟨nofun, nofun⟩

/-! ## No other line writes the outcome -/

theorem outcome_ite {p : Prop} [Decidable p] {u v : State} {o : Option OpResult} (hu : u.outcome = o) (hv : v.outcome = o) :
    (if p then u else v).outcome = o := by
  split
  · exact hu
  · exact hv

section

variable (K : List Frame) (s : State)

@[simp] theorem enterSwitchVoltage_outcome : (enterSwitchVoltage K s).outcome = s.outcome :=
  outcome_ite rfl (startExchange_outcome _ _ s)
@[simp] theorem enterSelectFunction_outcome (m : SwitchMode) (g i : Nat) :
    (enterSelectFunction m g i K s).outcome = s.outcome :=
  outcome_ite rfl (outcome_ite (acquire_outcome s _) ((startExchange_outcome _ _ _).trans (acquire_outcome s _)))
@[simp] theorem enterGetScr_outcome : (enterGetScr K s).outcome = s.outcome :=
  outcome_ite (acquire_outcome s _) ((startExchange_outcome _ _ _).trans (acquire_outcome s _))
@[simp] theorem enterDataCommand_outcome (dir : Direction) (n : Nat) (addr : Word) (d : Descriptor) :
    (enterDataCommand dir n addr d K s).outcome = s.outcome := by
  cases dir with
  | read => exact outcome_ite (startExchange_outcome _ _ s) (startExchange_outcome _ _ s)
  | write => exact outcome_ite (startExchange_outcome _ _ s) (startExchange_outcome _ _ s)
@[simp] theorem enterToNormal_outcome : (enterToNormal K s).outcome = s.outcome :=
  outcome_ite rfl (startExchange_outcome _ _ s)

variable (x : Result)

theorem attemptEnds_outcome (cur : Cursor) (received : Bool) : (attemptEnds cur received x K s).outcome = s.outcome :=
  outcome_ite (outcome_ite rfl rfl) (outcome_ite rfl (outcome_ite rfl rfl))

theorem polledAnswered_outcome (cur : Cursor) : (polledAnswered cur x K s).outcome = s.outcome := by
  unfold polledAnswered
  split
  · exact enterDataCommand_outcome _ _ _ _ _ _
  · exact outcome_ite rfl rfl
  · rfl

theorem csdAnswered_outcome : (csdAnswered x K s).outcome = s.outcome := by
  refine outcome_ite ?_ rfl
  dsimp only
  split
  · rfl
  · rfl

theorem detectOpCondAnswered_outcome (v2 : Bool) (k : Nat) : (detectOpCondAnswered v2 k x K s).outcome = s.outcome := by
  unfold detectOpCondAnswered
  split
  · exact outcome_ite (enterSwitchVoltage_outcome _ _) (startExchange_outcome _ _ _)
  · rfl
  · rfl

theorem initialDetectAnswered_outcome (ok : Bool) (code : Option Result) :
    (initialDetectAnswered ok code K s).outcome = s.outcome := outcome_ite (enterToNormal_outcome _ s) rfl

theorem normalStep_outcome {next : State → State} (h : (next s).outcome = s.outcome) :
    (normalStep x K s next).outcome = s.outcome := outcome_ite h (startExchange_outcome _ _ s)

theorem normalTolerates_outcome {next : State → State} (h : (next s).outcome = s.outcome) :
    (normalTolerates x K s next).outcome = s.outcome := outcome_ite h (startExchange_outcome _ _ s)

/-- A routine that goes on after a call does not report to the caller, but for `free_device`, whose last lines do (R302). -/
theorem answer_outcome {f : Frame} (hf : f ≠ .freeDevice) : (answer f x K s).outcome = s.outcome := by
  cases f with
  | goIdle | ifCond | cid | stop | inactive | checked | commanded | detectIdle | detectRca | normalDeselect =>
    exact outcome_ite rfl rfl
  | sent | detectIfCond | teardownDeselect | teardownIdle | initialNormal => rfl
  | opCond | rca | voltage | switchTable => exact outcome_ite (outcome_ite rfl rfl) rfl
  | appPrefix | status => exact outcome_ite (outcome_ite rfl (outcome_ite rfl rfl)) rfl
  | scr | table | erased => exact outcome_ite rfl (outcome_ite rfl rfl)
  | opCondPrefix | widthPrefix | detectVoltage | detectCid => exact outcome_ite (startExchange_outcome _ _ _) rfl
  | scrPrefix | eraseStart | eraseEnd => exact outcome_ite rfl (startExchange_outcome _ _ s)
  | csd => exact csdAnswered_outcome K s x
  | checkLength | switchLength => exact outcome_ite (enterSelectFunction_outcome _ s _ _ _) rfl
  | checkTable => exact outcome_ite (outcome_ite rfl (startExchange_outcome _ _ s)) rfl
  | polled cur => exact polledAnswered_outcome K s x cur
  | stopped cur received => exact attemptEnds_outcome K s x cur received
  | detectOpCond v2 k => exact detectOpCondAnswered_outcome K s x v2 k
  | normalCsd => exact normalStep_outcome K s x (startExchange_outcome _ _ s)
  | normalSelect => exact normalStep_outcome K s x (enterGetScr_outcome _ s)
  | normalScr => exact normalStep_outcome K s x (outcome_ite (startExchange_outcome _ _ s) rfl)
  | normalSpeed => exact normalTolerates_outcome K s x rfl
  | normalDrive | normalPower => exact normalTolerates_outcome K s x (startExchange_outcome _ _ s)
  | normalLength => exact normalStep_outcome K s x rfl
  | initialDetect => exact initialDetectAnswered_outcome K s _ _
  | freeDevice => exact absurd rfl hf

end

section

variable {p : Point} {K : List Frame} {s t : State}

/-- The outcome is as it was, or the line at `p` wrote it. -/
def OutcomeMoves (p : Point) (K : List Frame) (s t : State) : Prop :=
  t.outcome = s.outcome ∨ ∃ ok code, OutcomeWrite p K ok code ∧ Ended t ok code

theorem controllerReturns_outcomeMoves (x : Result) : OutcomeMoves (.returned x) K s (controllerReturns x K s) := by
  cases K with
  | nil => exact .inr ⟨_, _, .controller x, rfl⟩
  | cons f rest =>
    by_cases hf : f = .freeDevice
    · subst hf
      exact .inr ⟨_, _, .freed _ rest, rfl⟩
    · exact .inl (answer_outcome rest s x hf)

theorem operationReturns_outcomeMoves (ok : Bool) (code : Option Result) :
    OutcomeMoves (.ended ok code) K s (operationReturns ok code K s) := by
  unfold operationReturns
  split
  · exact .inl (initialDetectAnswered_outcome _ s ok code)
  · exact .inl rfl
  · exact .inr ⟨_, _, .freed _ _, rfl⟩
  · exact .inr ⟨_, _, .operation ok code _, rfl⟩

/-- A step of an operation in progress writes the outcome only at the lines of `OutcomeWrite`. -/
theorem advance_outcomeMoves (p : Point) (K : List Frame) (s : State) : OutcomeMoves p K s (advance p K s) := by
  cases p with
  | addFraming | recvResponse | identificationBus | identificationClock => exact .inl rfl
  | drain | teardownBus | statusPoll | eraseChunk => exact .inl (startExchange_outcome _ _ _)
  | sendCommand | voltage => exact .inl (outcome_ite rfl rfl)
  | scrData | tableData =>
    have hdata := hostRecvData_outcome s
    exact .inl (outcome_ite (hdata _) (hdata _))
  | insertion => exact .inl (outcome_ite rfl (outcome_ite rfl rfl))
  | activation => exact .inl (outcome_ite rfl rfl)
  | transferClock => exact .inl (outcome_ite (startExchange_outcome _ _ _) (startExchange_outcome _ _ _))
  | blockData cur =>
    have hdata := dataPhase_outcome s cur.dir (blockDescriptor s cur.dir cur.buffer (cur.blocks s))
    exact .inl (outcome_ite ((startExchange_outcome _ _ _).trans hdata) ((attemptEnds_outcome _ _ _ _ _).trans hdata))
  | ifCondAttempt | opCondIteration => exact .inl (outcome_ite rfl (startExchange_outcome _ _ s))
  | returned x => exact controllerReturns_outcomeMoves x
  | ended ok code => exact operationReturns_outcomeMoves ok code

/-! ## Runs of operations -/

/-- What has been reported, if anything has, is no sentinel. -/
def PlainOutcome (s : State) : Prop := ∀ ok code, Ended s ok code → PlainCode code

theorem plainOutcome_of_none (h : s.outcome = none) : PlainOutcome s := fun _ _ he => by
  rw [Ended, h] at he
  cases he

theorem PlainOutcome.of_ended {ok : Bool} {code : Option Result} (h : Ended s ok code) (hcode : PlainCode code) :
    PlainOutcome s := fun _ _ he => by
  cases h.symm.trans he
  exact hcode

theorem plainOutcome_finish (s : State) (ok : Bool) {code : Option Result} (h : PlainCode code) :
    PlainOutcome (s.finish ok code) := .of_ended rfl h

theorem PlainOutcome.advance {b : Routine} (hs : PlainOutcome s) (hb : b.isOperation = true)
    (hnested : controlNested b (.running p K)) : PlainOutcome (advance p K s) := by
  obtain hsame | ⟨ok, code, hwrite, hended⟩ := advance_outcomeMoves p K s
  · exact fun ok code he => hs ok code (hsame.symm.trans he)
  · exact .of_ended hended (hwrite.plainCode hb hnested)

/-- From a state of an operation's run on, no sentinel is reported. -/
theorem Steps.plainOutcome {b : Routine} {t u : State} (h : Steps t u) (hb : b.isOperation = true) (ht : ControlInv b t)
    (hreq : t.request = none) (hplain : PlainOutcome t) : PlainOutcome u := by
  induction h with
  | here => exact hplain
  | step t v u hstep _ ih =>
    obtain ⟨-, rfl⟩ | ⟨p, K, hat, rfl⟩ | ⟨q, i, -, hsome, -⟩ := step_cases hstep
    · exact ih ht hreq hplain
    · exact ih (ht.advance hat.control) ((advance_performs t p K).request.trans hreq)
        (hplain.advance hb (hat.control ▸ ht.nesting))
    · cases hreq.symm.trans hsome

/-- R300: `allocate_device` reports success, `MemErr` or no code. -/
theorem allocateDevice_plainOutcome (s : State) : PlainOutcome (allocateDevice s) := by
  unfold allocateDevice
  split
  · exact plainOutcome_finish _ _ plainCode_none
  · split
    · exact plainOutcome_finish _ _ ⟨nofun, nofun⟩
    · split
      · exact plainOutcome_finish _ _ plainCode_none
      · exact plainOutcome_finish _ _ ⟨nofun, nofun⟩

/-- R98: on an unallocated Card the code is `NullPtr`. -/
theorem runOperation_plainOutcome {enter : List Frame → State → State} (h : runOperation enter s = .next t)
    (henter : PlainOutcome (enter [] s.begin)) : PlainOutcome t := by
  rcases runOperation_cases enter s with ⟨-, he⟩ | ⟨-, -, he⟩ | ⟨-, -, he⟩
  · cases he ▸ h
  · cases he ▸ h
    exact plainOutcome_finish _ _ ⟨nofun, nofun⟩
  · cases he ▸ h
    exact henter

/-- A request for an operation reports no sentinel at once, and the operation it begins is in the invariant. -/
theorem exec_operation {i : Instr} (hi : IsOperation i) (h : exec i s = .next t) :
    ∃ b : Routine, b.isOperation = true ∧ ControlInv b t ∧ PlainOutcome t := by
  cases i with
  | allocateDevice =>
    refine ⟨.detect, rfl, execAllocateDevice_controlInv h, ?_⟩
    simp only [exec, execAllocateDevice] at h
    split at h <;> cases h
    exact allocateDevice_plainOutcome _
  | freeDevice =>
    refine ⟨_, rfl, exec_controlInv rfl h, runOperation_plainOutcome h ?_⟩
    unfold enterFreeDevice
    split
    · exact .of_ended rfl ⟨nofun, nofun⟩
    · exact plainOutcome_of_none rfl
  | initialDevice | inactivateDevice | detect =>
    exact ⟨_, rfl, exec_controlInv rfl h, runOperation_plainOutcome h (plainOutcome_of_none rfl)⟩
  | toNormal =>
    exact ⟨_, rfl, exec_controlInv rfl h, runOperation_plainOutcome h (plainOutcome_of_none (enterToNormal_outcome _ _))⟩
  | rwBlocks | formatBlocks =>
    exact ⟨_, rfl, exec_controlInv rfl h, runOperation_plainOutcome h (plainOutcome_of_none (outcome_ite rfl rfl))⟩
  | _ => exact hi.elim

end

/-- Settles O21: an operation begins with no sentinel reported (`exec_operation`), and every later line that reports is one whose
place in the call nesting rules out a sentinel (`OutcomeWrite.plainCode`). -/
theorem operationsNeverEndWithRetryOrNotReady : Obligations.OperationsNeverEndWithRetryOrNotReady := by
  unfold Obligations.OperationsNeverEndWithRetryOrNotReady
  intro s u i hreq hi hrun ok r hended
  obtain ⟨t, hexec, hsteps⟩ := hrun
  obtain ⟨b, hb, hcontrol, hplain⟩ := exec_operation hi hexec
  have hcode := hsteps.plainOutcome hb hcontrol ((exec_performs hexec).request.trans hreq) hplain ok (some r) hended
  exact hcode.imp (mt (congrArg some)) (mt (congrArg some))

end Sys2Proof.Machine

/-! Reset (70_reset_and_hazards.md R350, R351) and what a step of the block runs. -/

namespace Sys2Proof.Machine

/-! ## The block right after reset -/

/-- Nothing of a request is there after reset (`controlInv_idle`), whatever its routine would have been. -/
theorem reset_controlInv (b : Routine) : ControlInv b State.reset := controlInv_idle b rfl rfl rfl rfl

theorem wireTrace_reset : wireTrace State.reset = [] := rfl

/-- Settles O12: the Card holds R35's values (`cardInv_initial`), no request is there, and nothing has been sent. -/
theorem resetMeetsTheInvariant : Obligations.ResetMeetsTheInvariant := by
  unfold Obligations.ResetMeetsTheInvariant
  have hcard : CardInv State.reset.host State.reset.card := cardInv_initial defaultHost false
  refine (reset_controlInv .detect).inv (i := .detect) rfl hcard rfl fun _ f hf => ?_
  rw [wireTrace_reset] at hf
  cases hf

/-! ## What a step runs -/

section

variable {s : State} {r : Request} {i : Instr}

/-- R98: a public operation has no call modes. -/
theorem hasCallModes_of_operation (h : IsOperation i) : hasCallModes i = false := by
  cases i
  case allocateDevice | freeDevice | initialDevice | inactivateDevice | detect | toNormal | rwBlocks | formatBlocks => rfl
  all_goals exact h.elim

/-- R180, R98: a request is run by `exec` in execute mode, and in either mode if it is for an operation or a reserved op code. -/
theorem executes_of_mode (h : r.hostSupplied = true ∨ IsOperation i ∨ ∃ op, i = .reservedOp op) :
    (r.hostSupplied || !hasCallModes i) = true := by
  obtain hhost | hop | ⟨op, rfl⟩ := h
  · rw [hhost, Bool.true_or]
  · rw [hasCallModes_of_operation hop, Bool.not_false, Bool.or_true]
  · exact Bool.or_true _

/-- R95: a word that is no request is refused. -/
theorem step_undecodable {e : DecodeError} (hidle : s.control = .idle) (hr : s.request = some r)
    (hd : decode r.word = .error e) : step s = .refused (.notARequest e) := by
  simp only [step, fetch, hr, hidle, hd, ne_eq, not_true_eq_false, if_false]

/-- R351: the block waits at its port. -/
theorem step_waits (hidle : s.control = .idle) (hr : s.request = none) : step s = .next s := by
  simp only [step, fetch, hr, if_pos hidle]

theorem step_resumes (hbusy : s.control ≠ .idle) (hr : s.request = none) : step s = .next (resume s) := by
  simp only [step, fetch, hr, if_neg hbusy]

theorem decodeTableWord_eq_some {nbits w : Nat} :
    decodeTableWord nbits w = some i ↔ decode (requestWordOf nbits w) = .ok i := by
  unfold decodeTableWord
  cases decode (requestWordOf nbits w) with
  | ok j => simp only [Option.some.injEq, Except.ok.injEq]
  | error e => exact ⟨nofun, nofun⟩

/-- A presented word is taken from the port again, with no descriptor. -/
theorem takeRequest_present (s : State) (w : RequestWord) :
    (s.present w).takeRequest ⟨w, true, none⟩ = { s with control := .idle, request := none, callerDesc := none } := rfl

/-- A word presented at the port of an idle block is run in execute mode. -/
theorem step_present (s : State) {w : RequestWord} (hd : decode w = .ok i) :
    step (s.present w) = exec i { s with control := .idle, request := none, callerDesc := none } := by
  rw [step_execute (s := s.present w) (r := ⟨w, true, none⟩) rfl rfl hd (Bool.true_or _), takeRequest_present]

end

/-- Settles O13: one rule for each thing the fetch can find at the port. -/
theorem stepRunsTheRequestedInstruction : Obligations.StepRunsTheRequestedInstruction := by
  unfold Obligations.StepRunsTheRequestedInstruction
  refine ⟨fun s r i hidle hr hd => ⟨fun hmode => ?_, fun hhost hop hres => ?_⟩, fun s r e => step_undecodable,
    fun s => step_waits, fun s => step_resumes, fun s nbits w i hd => ?_⟩
  · exact step_execute hidle hr hd (executes_of_mode hmode)
  · exact step_describe hidle hr hd hhost (hasCallModes_of_command hop hres)
  · exact step_present s (decodeTableWord_eq_some.1 hd)

end Sys2Proof.Machine
